-- ==== Sys2Proof/Word.lean ====
section
/-! DEFINITION. The words of the Pezjora 416 model: the byte of the link and of the handset lines, and
the finite numberings of rooms, microphones, channels and handsets (00_scope.md, Conventions). -/

namespace Sys2Proof

/-- One byte of a cell, of a handset message or of a buffer (R178, 11.3). -/
abbrev Byte := BitVec 8

/-- A room, 0..3. -/
abbrev RoomId := Fin 4

/-- A microphone channel, 0..7: room × 2 + microphone index. -/
abbrev Channel := Fin 8

/-- A handset of a line, as its address less one: the value `a - 1` stands for address `a` of 1..15. -/
abbrev HandsetId := Fin 15

/-- The bus address of a handset, 1..15 (R132). -/
def HandsetId.address (h : HandsetId) : Nat := h.val + 1

/-- The staff handset, address 15 (R132). -/
def HandsetId.staff : HandsetId := 14

end Sys2Proof
end

