-- ==== Sys2Proof/Syntax.lean ====
section
/-! DEFINITION. The commands: one constructor for each row of spec/opcode_table.json, with the operands
the spec gives the event. A step of the part that takes something another block handed to it (R28, R36,
R101, R140, R165) names only whose event it is; what was handed waits in the state. A row that names what an
arrival, a reply window or a cell brings to its end carries the operands of that arrival, window or cell. -/

namespace Sys2Proof

/-- One character received on a handset line (R131): eight data bits, the parity bit, whether the stop
bit was there, and whether the character overran the one before it. -/
structure RxChar where
  data : Byte
  parity : Bool
  stop : Bool
  overrun : Bool
  deriving DecidableEq, Repr

/-- A sample pair that arrives at a room's mic sample port (R92). -/
structure RoomArrival where
  room : RoomId
  sample1 : BitVec 16
  sample2 : BitVec 16
  deriving DecidableEq, Repr

/-- A sample pair that arrives at the room of a channel, as an event of that channel (R93, R97). -/
structure ChannelArrival where
  channel : Channel
  sample1 : BitVec 16
  sample2 : BitVec 16
  deriving DecidableEq, Repr

/-- The operations and events of the Pezjora 416, in the order of the opcode table.

The control commands carry the room byte and the tag of the CONTROL cell that brings them, and `args`,
the payload bytes after the command code (R164, R166, R179). -/
inductive Instr where
  /-- Power is applied (R19). -/
  | powerOn
  /-- The reset line is asserted (R20). -/
  | resetLineAssert
  /-- The reset line is released (R20). -/
  | resetLineRelease
  /-- The last bytes arrive on the link, and it goes down (R175), cutting off a cell of which not all has
  arrived (R165). -/
  | linkDown (lastBytes : List Byte)
  /-- The link comes up (R176). -/
  | linkUp
  /-- Bytes arrive on the link, and the intake takes the oldest whole cell that credit lets it take (R164,
  R165, R178); with no bytes, one that was held back. -/
  | cellIntake (bytes : List Byte)
  /-- The frame buffer manager of a room takes the oldest VIDEO cell handed to it (R82). -/
  | video (room : RoomId)
  /-- The timeline of a room takes the oldest TIME_MARK handed to it (R29). -/
  | timeMark (room : RoomId)
  | deviceReset (room tag : Byte) (args : List Byte)
  | statusQuery (room tag : Byte) (args : List Byte)
  | roomOpen (room tag : Byte) (args : List Byte)
  | roomClose (room tag : Byte) (args : List Byte)
  | roomReset (room tag : Byte) (args : List Byte)
  | roomSettings (room tag : Byte) (args : List Byte)
  | noticeMask (room tag : Byte) (args : List Byte)
  | bandTable (room tag : Byte) (args : List Byte)
  | palette (room tag : Byte) (args : List Byte)
  | glyphLoad (room tag : Byte) (args : List Byte)
  | glyphClear (room tag : Byte) (args : List Byte)
  | pitchCells (room tag : Byte) (args : List Byte)
  | lyricLine (room tag : Byte) (args : List Byte)
  | noteEvents (room tag : Byte) (args : List Byte)
  | songOpen (room tag : Byte) (args : List Byte)
  | songRefuse (room tag : Byte) (args : List Byte)
  | songStart (room tag : Byte) (args : List Byte)
  | songEnd (room tag : Byte) (args : List Byte)
  | pause (room tag : Byte) (args : List Byte)
  | resume (room tag : Byte) (args : List Byte)
  | skip (room tag : Byte) (args : List Byte)
  | setTempo (room tag : Byte) (args : List Byte)
  | offerPoll (room tag : Byte) (args : List Byte)
  | queueRemove (room tag : Byte) (args : List Byte)
  | queueMove (room tag : Byte) (args : List Byte)
  /-- One period of a room's 1 kHz time base, with the levels of knob lines A and B (R23, R34). -/
  | timelineTick (room : RoomId) (a b : Bool)
  /-- The oldest detent handed on for a room is dealt with (R37, R38). -/
  | keyDetent (room : RoomId)
  /-- The room controller takes the oldest clock change handed to it (R11, R28). -/
  | endGuard (room : RoomId)
  /-- The lyric table unit takes the oldest clock change of the room handed to it (R52). -/
  | evaluation (room : RoomId)
  /-- The score unit takes the oldest clock change of the room handed to it (R116). -/
  | pass (room : RoomId)
  | markTimerExpiry (room : RoomId)
  | cueTimerExpiry (room : RoomId)
  | resultHoldExpiry (room : RoomId)
  | videoStaleExpiry (room : RoomId)
  | offerTimerExpiry (room : RoomId)
  /-- The VIDEO cell that completes the filling frame is taken (R83, R86). -/
  | frameCompletion (room : RoomId)
  /-- A room's compositor starts an output frame (R62). -/
  | outputFrameStart (room : RoomId)
  /-- A sample pair arrives at a room's mic sample port (R92). -/
  | samplePair (room : RoomId) (sample1 sample2 : BitVec 16)
  /-- The sample pair arrives that completes a channel's MIC cell (R93). -/
  | micCellComplete (arrival : ChannelArrival)
  /-- The sample pair arrives that completes a hop of a room's channels (R96). -/
  | hopComplete (arrival : RoomArrival)
  /-- The sample pair arrives that brings a channel's waiting request to its greatest age (R97). -/
  | requestExpiry (arrival : ChannelArrival)
  /-- The running analysis completes (R101). -/
  | analysisComplete
  /-- The score unit takes the oldest analysis result handed to it (R118). -/
  | analysisResult
  /-- A room's poll slot timer expires (R134). -/
  | pollSlot (room : RoomId)
  /-- The reply window of a room's open slot closes (R136). -/
  | replyWindowClose (room : RoomId)
  /-- Characters arrive on a room's handset line (R131, R136). -/
  | handsetReply (room : RoomId) (chars : List RxChar)
  /-- The reply window closes whose miss takes a handset OFFLINE (R138). -/
  | handsetOffline (room : RoomId) (handset : HandsetId)
  /-- The queue manager takes the oldest REQUEST of the room handed to it (R149). -/
  | request (room : RoomId)
  /-- The queue manager takes the oldest CANCEL of the room handed to it (R152). -/
  | cancel (room : RoomId)
  /-- The last byte of the cell in the transmit register has left (R169). -/
  | uplinkFree
  deriving DecidableEq, Repr

end Sys2Proof
end

