-- ==== Sys2Proof/Decode.lean ====
section
/-! DEFINITION. The words of the opcode table. The Pezjora 416 is a block that takes commands: no row of
spec/opcode_table.json gives a command any bits, so no word spells one. The bytes of the cells, records
and handset messages (chapter 11) are read in Sys2Proof/Machine/Operands.lean. -/

namespace Sys2Proof

/-- The command a word of the opcode table spells: none, since no row of the table has bits. -/
def decodeTableWord (_nbits _w : Nat) : Option Instr := none

end Sys2Proof
end

