-- ==== Sys2Proof/Config.lean ====
section
/-! DEFINITION. What the manual fixes for every Pezjora 416 (sizes of pools and queues, limits of
counters and of song time) and the free values: constants without a body, for the values the manual
does not state. -/

namespace Sys2Proof

/-- What a voiced frame measured (R109): a note of the pitch cell table, or a pitch below or above it. -/
inductive MeasuredNote where
  | note (number : Nat)
  | under
  | over
  deriving DecidableEq, Repr, Inhabited

namespace Config

/-- Every saturating counter stops here (R81, R93, R94, R112, R133, R165, R168). -/
def counterMax : Nat := 65535

/-- The greatest song length, in song ms (R22, R159). -/
def songLengthMax : Nat := 1800000

/-- The end guard lies this far past the song length (R11). -/
def guardMargin : Nat := 3000

/-- The greatest value of the song clock and of every song time in a record (R22, R45, R113). -/
def songTimeMax : Nat := 1803000

/-- Line slots of the device, and the most a room may hold (R46). -/
def linePool : Nat := 96
def linesPerRoom : Nat := 48

/-- Syllable slots of the device, and the most a room may hold (R46). -/
def syllablePool : Nat := 1024
def syllablesPerRoom : Nat := 512

/-- Note slots of the device, and the most a room may hold (R113). -/
def notePool : Nat := 1024
def notesPerRoom : Nat := 256

/-- Queue entry slots of the device, and the most a room may hold (R147). -/
def entryPool : Nat := 96
def entriesPerRoom : Nat := 32

/-- Tickets run from 1 to this number and wrap (R148). -/
def ticketMax : Nat := 250

/-- The glyph store, in pixel cells (R40). -/
def glyphCells : Nat := 1310720

/-- The rows of every glyph (R40). -/
def glyphRows : Nat := 40

/-- The columns of the blank drawn for an ABSENT glyph code (R72). -/
def blankWidth : Nat := 16

/-- Segments of a frame: 720 lines of 4 (R80). -/
def segments : Nat := 2880

/-- Bytes of pixels in one segment (R178). -/
def segmentBytes : Nat := 640

/-- Samples of a MIC cell (R93). -/
def micCellSamples : Nat := 64

/-- Cells of a channel's ring (R94). -/
def ringCells : Nat := 640

/-- Samples between two hops (R96). -/
def hopSamples : Nat := 320

/-- Samples of an analysis window (R96). -/
def windowSamples : Nat := 400

/-- The age at which a waiting request expires (R97). -/
def requestLife : Nat := 240

/-- Places of the result queue (R168). -/
def resultPlaces : Nat := 16

/-- Places of the notice queue (R171). -/
def noticePlaces : Nat := 32

/-- Items a handset's outbox holds (R144). -/
def outboxPlaces : Nat := 4

/-- Consecutive misses that take a handset OFFLINE (R138). -/
def missLimit : Nat := 3

/-- The poll slot period, in ms (R134). -/
def slotPeriod : Nat := 10

/-- The period of the video-stale timer, in ms (R3, R15). -/
def stalePeriod : Nat := 2000

/-- The lines of a frame (R61). -/
def frameLines : Nat := 720

/-- FREE VALUE. How many lines of a room's frame have been sent when a close or a reset ends it, by the
number of such ends before it. The spec gives frames no place in the order of events (R61, R64). -/
opaque linesDrawn : Nat → RoomId → Nat

/-- FREE VALUE. What a lookup gives for a refined period when the pitch cell table is EMPTY. R109 says
that this lookup is never made and states no result for it. -/
opaque noteWithoutTable : Nat → MeasuredNote

/-- FREE VALUE. The state byte of a HANDSET_CHANGED notice that names no handset. 11.1 gives the address
byte 0 for none and no code for the state beside it. -/
opaque stateOfNoHandset : Byte

end Config

end Sys2Proof
end

