-- ==== Sys2Proof/Machine/State.lean ====
section
/-! DEFINITION. The state of a Pezjora 416, as plain data: every item a chapter gives a block, the cells
and reports that one block has handed to another and that is not yet taken, and the queue of commands that
wait. `State.reset` is the part just after power-on. -/

namespace Sys2Proof.Machine

/-! ## Microphones and rooms -/

/-- The two microphones of a room (R92). -/
inductive Mic where
  | mic1
  | mic2
  deriving DecidableEq, Repr

/-- The microphone's index, 0 or 1. -/
def Mic.index : Mic → Nat
  | .mic1 => 0
  | .mic2 => 1

/-- One item for each microphone of a room. -/
structure PerMic (α : Type) where
  one : α
  two : α
  deriving DecidableEq, Repr

/-- The item of one microphone. -/
def PerMic.get {α : Type} (p : PerMic α) : Mic → α
  | .mic1 => p.one
  | .mic2 => p.two

/-- The item of one microphone, replaced. -/
def PerMic.set {α : Type} (p : PerMic α) (m : Mic) (v : α) : PerMic α :=
  match m with
  | .mic1 => { p with one := v }
  | .mic2 => { p with two := v }

/-- The same change made to both microphones' items. -/
def PerMic.both {α : Type} (p : PerMic α) (f : α → α) : PerMic α := ⟨f p.one, f p.two⟩

/-- The room state (R1). -/
inductive Phase where
  | dark
  | attract
  | cueing
  | playing
  | paused
  | result
  deriving DecidableEq, Repr

/-- The pause reason set (R2). -/
structure PauseReasons where
  stall : Bool
  staff : Bool
  deriving DecidableEq, Repr

/-- A room timer (R3), with the real time that remains in ms. -/
inductive Timer where
  | stopped
  | running (remaining : Nat)
  deriving DecidableEq, Repr

/-- The video-stale timer (R15), which RESULT suspends. -/
inductive StaleTimer where
  | stopped
  | running (remaining : Nat)
  | suspended (kept : Nat)
  deriving DecidableEq, Repr

/-- The display mode (R16). -/
inductive DisplayMode where
  | hz60
  | hz50
  deriving DecidableEq, Repr

/-- The singing part given to a microphone (R16). -/
inductive MicPart where
  | none
  | a
  | b
  deriving DecidableEq, Repr

/-- The singing part of a line or of a note (R45, R113). -/
inductive Part where
  | a
  | b
  | both
  deriving DecidableEq, Repr

/-- The settings record of a room (R16). Times are in ms, but for the three timeouts given in s. -/
structure Settings where
  displayMode : DisplayMode
  preroll : Nat
  linger : Nat
  resultHold : Nat
  offerTimeout : Nat
  cueTimeout : Nat
  markTimeout : Nat
  tolerance : Nat
  octaveAllowance : Bool
  silenceThreshold : Nat
  voicingFactor : Nat
  onsetWindow : Nat
  keyGrace : Nat
  micParts : PerMic MicPart
  allowRepeats : Bool
  handsetLimit : Nat
  defaultTempo : Nat
  digitBase : Nat
  deriving DecidableEq, Repr

/-! ## Song timeline -/

/-- The filter of one knob line (R34): the last samples, the newest first, and the accepted level. -/
structure KnobLine where
  samples : List Bool
  level : Option Bool
  deriving DecidableEq, Repr

/-- The song timeline of a room (R22). -/
structure Timeline where
  clock : Nat
  tempo : Nat
  accumulator : Nat
  catchUp : Nat
  hold : Nat
  songLength : Option Nat
  keyOffset : Int
  keyStamp : Nat
  knobA : KnobLine
  knobB : KnobLine
  detents : Int
  deriving DecidableEq, Repr

/-! ## Lyric table unit -/

/-- A syllable of a lyric line (R45). -/
structure Syllable where
  first : Nat
  count : Nat
  onset : Nat
  duration : Nat
  deriving DecidableEq, Repr

/-- The display state of a held line (R51); a retired line is in no list. -/
inductive LineState where
  | loaded
  | shown
  | singing
  | done
  deriving DecidableEq, Repr

/-- A lyric line (R45) and its display state. The span of song time is [start, stop). -/
structure Line where
  id : Nat
  row : Fin 2
  part : Part
  start : Nat
  stop : Nat
  glyphs : List Nat
  syllables : List Syllable
  state : LineState
  deriving DecidableEq, Repr

/-- The last-loaded record of a room, when it is not none (R47). -/
structure LastLoaded where
  id : Nat
  start : Nat
  deriving DecidableEq, Repr

/-- What the lyric table unit keeps for a room: the line list, the last-loaded record (R47) and the id of
the most recently skipped line (R53). The rows' occupants and the slots taken are read from the list. -/
structure Lyrics where
  lines : List Line
  lastLoaded : Option LastLoaded
  lastSkipped : Option Nat
  deriving DecidableEq, Repr

/-- A present entry of the glyph code table (R40). -/
structure GlyphEntry where
  offset : Nat
  width : Nat
  deriving DecidableEq, Repr

/-- The glyph code table and the glyph store (R40). An unlisted code is ABSENT. The table is listed by
rising code; the cells are listed by rising number, those that hold pixel code 0 unlisted. -/
structure GlyphStore where
  table : List (Nat × GlyphEntry)
  cells : List Host.Cell
  fill : Nat
  deriving DecidableEq, Repr

/-! ## Raster compositor -/

/-- A colour triple (R68). -/
structure Colour where
  y : Byte
  cb : Byte
  cr : Byte
  deriving DecidableEq, Repr

/-- Black: Y 0, Cb 128, Cr 128 (R62). -/
def Colour.black : Colour := ⟨0, 128, 128⟩

/-- The three colours the palette holds for a part (R68). -/
structure PartColours where
  outline : Colour
  unsung : Colour
  sung : Colour
  deriving DecidableEq, Repr

/-- The palette of a room (R68). -/
structure Palette where
  a : PartColours
  b : PartColours
  both : PartColours
  banner : Colour
  deriving DecidableEq, Repr

/-- What a band shows (R65). -/
inductive BandKind where
  | video
  | lyricUpper
  | lyricLower
  | score
  | queue
  | blank
  deriving DecidableEq, Repr

/-- The horizontal placement of text in a band (R65). -/
inductive Alignment where
  | left
  | center
  | right
  deriving DecidableEq, Repr

/-- The room states in which a band shows its kind; `playing` stands for PLAYING and PAUSED (R65). -/
structure StateMask where
  attract : Bool
  cueing : Bool
  playing : Bool
  result : Bool
  deriving DecidableEq, Repr

/-- An entry of a band table (R65). -/
structure Band where
  height : Nat
  kind : BandKind
  dim : Nat
  alignment : Alignment
  margin : Nat
  mask : StateMask
  deriving DecidableEq, Repr

/-- One side of the score banner as sampled: the part, and the score or NOT_SCORED (R63). -/
structure ScoreView where
  part : MicPart
  score : Option Nat
  deriving DecidableEq, Repr

/-- What the compositor samples at an output frame start (R63), with the active band table, the digit
glyph base and the FRONT picture it then draws from (R62). -/
structure Snapshot where
  phase : Phase
  clock : Nat
  upper : Option Line
  lower : Option Line
  glyphs : GlyphStore
  palette : Palette
  live : PerMic ScoreView
  final : PerMic ScoreView
  songs : List Nat
  bands : List Band
  digitBase : Nat
  picture : List Host.Cell
  deriving DecidableEq, Repr

/-- What a display port carries: black, the frame drawn from a snapshot (R62), or one that a close or a reset
has cut, whose first `lines` lines were sent and whose other lines are black (R64). -/
inductive Display where
  | black
  | frame (snapshot : Snapshot)
  | cut (snapshot : Snapshot) (lines : Nat)
  deriving DecidableEq, Repr

/-- The raster compositor of a room: the active band table and the pending slot (R65), the palette (R68),
the display mode read at the last frame start (R61), and what the display port carries. -/
structure Compositor where
  active : List Band
  slot : Option (List Band)
  palette : Palette
  rate : DisplayMode
  display : Display
  deriving DecidableEq, Repr

/-! ## Frame buffer manager -/

/-- The role of a frame buffer (R79). -/
inductive Role where
  | front
  | ready
  | filling
  | free
  deriving DecidableEq, Repr

/-- An open filling-frame record (R81). The bitmap has one flag for each segment index. -/
structure FillRecord where
  sequence : Nat
  bitmap : BitVec Config.segments
  count : Nat
  deriving DecidableEq, Repr

/-- The frame buffer manager of a room (R79, R81). A picture lists its bytes by rising offset from its
own start, those that are as in the black picture unlisted. -/
structure FrameManager where
  roles : Vector Role 3
  pictures : Vector (List Host.Cell) 3
  record : Option FillRecord
  lastCompleted : Option Nat
  completed : Nat
  dropped : Nat
  abandoned : Nat
  discarded : Nat
  deriving DecidableEq, Repr

/-! ## Mic intake and pitch analysis engine -/

/-- A completed MIC cell (R93). -/
structure MicCell where
  sequence : Nat
  samples : List (BitVec 16)
  deriving DecidableEq, Repr

/-- An analysis request (R94). -/
structure AnalysisRequest where
  stamp : Nat
  age : Nat
  deriving DecidableEq, Repr

/-- One channel of the mic intake (R93, R94), but for its waiting slot, which stands with the uplink. -/
structure MicChannel where
  staging : List (BitVec 16)
  sequence : Nat
  lost : Nat
  ring : List Int
  writePos : Nat
  hopCount : Nat
  request : Option AnalysisRequest
  dropped : Nat
  deriving DecidableEq, Repr

/-- The analysis in progress (R99). -/
structure Analysis where
  channel : Channel
  stamp : Nat
  void : Bool
  window : List Int
  deriving DecidableEq, Repr

/-- One cell of the pitch cell table (R107). -/
structure PitchCell where
  low : Nat
  high : Nat
  deriving DecidableEq, Repr

/-- What the engine keeps of its last analysis (R110): the energy, the differences and the refined
period. How long it keeps them is the model's choice (log entry 26). -/
structure Residue where
  energy : Nat
  differences : List Nat
  period : Option Nat
  deriving DecidableEq, Repr

/-- The pitch analysis engine (R99, R107): RUNNING when it has a current analysis; the table EMPTY when
none. -/
structure Engine where
  current : Option Analysis
  lastServed : Channel
  table : Option (List PitchCell)
  residue : Option Residue
  deriving DecidableEq, Repr

/-- An analysis result (R110); `measured` is none for an unvoiced frame. -/
structure AnalysisResult where
  channel : Channel
  stamp : Nat
  measured : Option MeasuredNote
  deriving DecidableEq, Repr

/-! ## Score unit -/

/-- A singer record (R112). -/
structure Singer where
  graded : Nat
  hit : Nat
  near : Nat
  miss : Nat
  silent : Nat
  good : Nat
  late : Nat
  missed : Nat
  judged : Nat
  runStart : Option Nat
  deriving DecidableEq, Repr

/-- A channel's verdict on a note's onset (R113). -/
inductive Onset where
  | pending
  | good
  | late
  | missed
  | notJudged
  | notApplicable
  deriving DecidableEq, Repr

/-- A melody note (R113), due in [start, stop). -/
structure Note where
  start : Nat
  stop : Nat
  number : Nat
  part : Part
  previousEndA : Option Nat
  previousEndB : Option Nat
  seen : PerMic Bool
  onset : PerMic Onset
  deriving DecidableEq, Repr

/-- The note list of a room and its three records (R113). -/
structure Melody where
  notes : List Note
  lastStart : Option Nat
  lastEndA : Option Nat
  lastEndB : Option Nat
  deriving DecidableEq, Repr

/-- How a song ended (R128). -/
inductive SongOutcome where
  | complete
  | aborted
  deriving DecidableEq, Repr

/-- A singer entry of a result record (R128); `counts.runStart` is none in it. -/
structure SingerEntry where
  part : MicPart
  notScored : Bool
  pitch : Nat
  timing : Nat
  final : Nat
  counts : Singer
  dropped : Nat
  deriving DecidableEq, Repr

/-- The result record of a song (R128). -/
structure ResultRecord where
  ticket : Nat
  song : Nat
  outcome : SongOutcome
  singers : PerMic SingerEntry
  deriving DecidableEq, Repr

/-! ## Request line controller -/

/-- The kinds of news (R144). -/
inductive NewsKind where
  | nextUp
  | nowPlaying
  | refusedByServer
  | cancelled
  deriving DecidableEq, Repr

/-- A news item (R144). -/
structure NewsItem where
  kind : NewsKind
  ticket : Nat
  deriving DecidableEq, Repr

/-- The refusal codes of the answer REFUSED (8.5). -/
inductive RefusalCode where
  | badSong
  | roomClosed
  | queueFull
  | duplicate
  | handsetLimit
  | noTicket
  | notOwner
  deriving DecidableEq, Repr

/-- The answer to a new message (8.5). -/
inductive Answer where
  | accepted (ticket position : Nat)
  | cancelDone (ticket : Nat)
  | status (nowPlaying : Option Nat) (length : Nat) (own : List (Nat × Nat))
  | refused (code : RefusalCode)
  deriving DecidableEq, Repr

/-- An answer with the sequence bit of the message it answers (R137). -/
structure StoredAnswer where
  answer : Answer
  bit : Bool
  deriving DecidableEq, Repr

/-- A handset record (R137); `online` false stands for OFFLINE. -/
structure HandsetRecord where
  online : Bool
  misses : Nat
  bit : Option Bool
  stored : Option StoredAnswer
  answerPending : Bool
  outbox : List NewsItem
  deriving DecidableEq, Repr

/-- An open slot record (R133): the address polled, whether the poll was a discovery probe, the news item
carried, and whether that item has since left the outbox (R139). -/
structure Slot where
  handset : HandsetId
  probe : Bool
  news : Option NewsItem
  newsGone : Bool
  deriving DecidableEq, Repr

/-- One character that the part sends on a handset line (R131): eight data bits, the parity bit, and the stop
bit, true when it is there. -/
structure TxChar where
  data : Byte
  parity : Bool
  stop : Bool
  deriving DecidableEq, Repr

/-- The line state of a request line controller (R133), its handset records (R137), the most recently
changed handset (R145), the characters the assembler holds of the open window's reply (R131), and the last
message the part sent on the line (R135). -/
structure RequestLine where
  slotTimer : Nat
  slotCount : Nat
  slotCursor : Nat
  discoveryCursor : Nat
  slot : Option Slot
  received : List RxChar
  garbled : Nat
  silent : Nat
  records : Vector HandsetRecord 15
  changed : Option HandsetId
  sent : List TxChar
  deriving DecidableEq, Repr

/-! ## Request queue manager -/

/-- The state of a queue entry (R147). -/
inductive EntryState where
  | queued
  | offered
  | loading
  | playing
  deriving DecidableEq, Repr

/-- A queue entry (R147). -/
structure Entry where
  ticket : Nat
  song : Nat
  owner : HandsetId
  duet : Bool
  priority : Bool
  preset : Option Int
  state : EntryState
  deriving DecidableEq, Repr

/-- A room's queue, head first (R147), its ticket counter (R148) and its offer state (R155). -/
structure RequestQueue where
  entries : List Entry
  counter : Nat
  offerTimer : Timer
  suspended : Bool
  lapsed : Option Nat
  deriving DecidableEq, Repr

/-! ## Link interface -/

/-- The kinds of notice, in kind order (R170). -/
inductive NoticeKind where
  | ready
  | offer
  | offerTimeout
  | cueTimeout
  | songStarted
  | paused
  | resumed
  | keyChanged
  | result
  | queueChanged
  | handsetChanged
  | lyricSkipped
  | videoStale
  deriving DecidableEq, Repr

/-- The notice mask of a room: one flag for each of its twelve kinds (R172). -/
structure NoticeMask where
  offer : Bool
  offerTimeout : Bool
  cueTimeout : Bool
  songStarted : Bool
  paused : Bool
  resumed : Bool
  keyChanged : Bool
  result : Bool
  queueChanged : Bool
  handsetChanged : Bool
  lyricSkipped : Bool
  videoStale : Bool
  deriving DecidableEq, Repr

/-- A pair of a room (none for the device) and a notice kind (R170). -/
structure NoticePair where
  room : Option RoomId
  kind : NoticeKind
  deriving DecidableEq, Repr

/-- The status codes of results (R166). -/
inductive Status where
  | ok
  | okClamped
  | busy
  | badRoom
  | noSpace
  | order
  | locked
  | badRecord
  | badTable
  | stale
  | unknownKind
  deriving DecidableEq, Repr

/-- A result (R168), with the code of the command it answers (R178). -/
structure Result where
  tag : Byte
  room : Byte
  status : Status
  code : Nat
  picture : List Byte
  deriving DecidableEq, Repr

/-- The cell in the uplink's transmit register (R169). -/
inductive UpCell where
  | mic (channel : Channel) (cell : MicCell)
  | result (result : Result)
  | notice (pair : NoticePair) (content : List Byte)
  deriving DecidableEq, Repr

/-- The READY cause (R19). -/
inductive ReadyCause where
  | none
  | powerOn
  | resetLine
  | resetCommand
  deriving DecidableEq, Repr

/-- The link interface: the link state (R164), the level of the reset line (R20), the READY cause (R19),
the two counters (R165, R168), the result queue (R168), the notice queue and its pending set (R171), the
transmit register and the channel last sent (R169), and the channels' waiting MIC cells (R93). -/
structure Link where
  up : Bool
  resetLine : Bool
  readyCause : ReadyCause
  cellsDiscarded : Nat
  creditStalls : Nat
  results : List Result
  notices : List NoticePair
  pendingPairs : List NoticePair
  transmit : Option UpCell
  lastSent : Channel
  micWaiting : Vector (Option MicCell) 8
  deriving DecidableEq, Repr

/-! ## The part -/

/-- A REQUEST on its way to the queue manager (R141). `live` says that its answer is still awaited: the
handset has neither gone OFFLINE nor sent a newer message (R140). -/
structure HandedRequest where
  room : RoomId
  sender : HandsetId
  bit : Bool
  song : Nat
  duet : Bool
  preset : Option Int
  priority : Bool
  live : Bool
  deriving DecidableEq, Repr

/-- A CANCEL on its way to the queue manager (R142). -/
structure HandedCancel where
  room : RoomId
  sender : HandsetId
  bit : Bool
  ticket : Nat
  live : Bool
  deriving DecidableEq, Repr

/-- What one block has handed to another that takes it as an event of its own: a VIDEO or TIME_MARK cell
(R165), a detent of the key knob (R36), a clock change for each of its three readers, with whether a jump made
it (R28), an analysis result (R101), a REQUEST or a CANCEL (R140). -/
inductive HandOver where
  | video (room : RoomId) (payload : List Byte)
  | mark (room : RoomId) (position : Nat)
  | detent (room : RoomId) (clockwise : Bool)
  | toGuard (room : RoomId) (clock : Nat)
  | toLyrics (room : RoomId) (jump : Bool)
  | toScore (room : RoomId) (clock : Nat)
  | analysis (result : AnalysisResult)
  | request (r : HandedRequest)
  | cancel (c : HandedCancel)
  deriving DecidableEq, Repr

/-- All that the blocks keep for one room. -/
structure Room where
  phase : Phase
  reasons : PauseReasons
  settings : Settings
  markTimer : Timer
  cueTimer : Timer
  holdTimer : Timer
  staleTimer : StaleTimer
  timeline : Timeline
  lyrics : Lyrics
  compositor : Compositor
  video : FrameManager
  mics : PerMic MicChannel
  singers : PerMic Singer
  melody : Melody
  result : Option ResultRecord
  line : RequestLine
  queue : RequestQueue
  mask : NoticeMask
  deriving DecidableEq, Repr

/-- The state of the part. `pending` is the queue of the commands that wait, and `onLink` holds the bytes of
the downstream cells that the intake has not taken (R164, R178), both the oldest first. `cuts`, of the model's
own, counts the closes and resets that end a frame (log entry 16). -/
structure State where
  pending : List Instr
  onLink : List Byte
  link : Link
  rooms : Vector Room 4
  glyphs : GlyphStore
  engine : Engine
  handed : List HandOver
  cuts : Nat
  deriving DecidableEq, Repr

/-- No command of the part makes it stop with a fault: each event has an outcome in every state. -/
inductive Fault where
  deriving DecidableEq, Repr

/-- Why a step has no meaning. -/
inductive Refusal where
  /-- The command has no meaning in this model yet; raised by `exec` alone. Safe: nothing is claimed of
  it. -/
  | notModelled (mnemonic : String)
  deriving DecidableEq, Repr

/-! ## Reading and writing a room -/

/-- One room of the part. -/
def State.room (s : State) (r : RoomId) : Room := s.rooms.get r

/-- The part with one room replaced. -/
def State.setRoom (s : State) (r : RoomId) (x : Room) : State := { s with rooms := s.rooms.set r x }

/-- The part with one room changed. -/
def State.modRoom (s : State) (r : RoomId) (f : Room → Room) : State := s.setRoom r (f (s.room r))

/-! ## Starting values -/

/-- The default settings record (R16). -/
def Settings.default : Settings :=
  { displayMode := .hz60, preroll := 2000, linger := 500, resultHold := 8, offerTimeout := 5,
    cueTimeout := 10, markTimeout := 400, tolerance := 1, octaveAllowance := true,
    silenceThreshold := 4000, voicingFactor := 5, onsetWindow := 80, keyGrace := 200,
    micParts := ⟨.a, .b⟩, allowRepeats := false, handsetLimit := 4, defaultTempo := 100,
    digitBase := 48 }

/-- An empty knob filter (R34). -/
def KnobLine.empty : KnobLine := ⟨[], none⟩

/-- The timeline after a device reset (R22). -/
def Timeline.start : Timeline :=
  { clock := 0, tempo := 100, accumulator := 0, catchUp := 0, hold := 0, songLength := none,
    keyOffset := 0, keyStamp := 0, knobA := KnobLine.empty, knobB := KnobLine.empty, detents := 0 }

/-- A room with no line held and none skipped (R47, R53). -/
def Lyrics.start : Lyrics := ⟨[], none, none⟩

/-- The empty glyph store (R40). -/
def GlyphStore.empty : GlyphStore := ⟨[], [], 0⟩

/-- The default band table (R65). -/
def Band.defaultTable : List Band :=
  [ ⟨520, .video, 0, .left, 0, ⟨true, true, true, true⟩⟩,
    ⟨60, .lyricUpper, 3, .left, 40, ⟨false, true, true, false⟩⟩,
    ⟨60, .lyricLower, 3, .right, 40, ⟨false, true, true, false⟩⟩,
    ⟨40, .score, 0, .center, 0, ⟨false, false, true, true⟩⟩,
    ⟨40, .video, 0, .left, 0, ⟨true, true, true, true⟩⟩ ]

/-- Three black colours. -/
def PartColours.black : PartColours := ⟨.black, .black, .black⟩

/-- The palette after a reset (R68). -/
def Palette.black : Palette := ⟨.black, .black, .black, .black⟩

/-- The compositor after a device reset (R65, R68); its port carries black, the room being DARK (R62). -/
def Compositor.start : Compositor := ⟨Band.defaultTable, none, Palette.black, .hz60, .black⟩

/-- The frame buffer manager after a device reset or a close (R79, R81, R89). -/
def FrameManager.start : FrameManager :=
  { roles := #v[.front, .free, .free], pictures := #v[[], [], []], record := none,
    lastCompleted := none, completed := 0, dropped := 0, abandoned := 0, discarded := 0 }

/-- The cells of a clear ring (R94). -/
def emptyRing : List Int := List.replicate Config.ringCells 0

/-- A channel of the mic intake after a device reset (R93, R94). -/
def MicChannel.start : MicChannel := ⟨[], 0, 0, emptyRing, 0, 0, none, 0⟩

/-- A cleared singer record (R112). -/
def Singer.start : Singer := ⟨0, 0, 0, 0, 0, 0, 0, 0, 0, none⟩

/-- An empty note list with its records none (R113). -/
def Melody.start : Melody := ⟨[], none, none, none⟩

/-- An OFFLINE handset record (R137). -/
def HandsetRecord.offline : HandsetRecord := ⟨false, 0, none, none, false, []⟩

/-- The line state after a device reset (R133, R137, R145). -/
def RequestLine.start : RequestLine :=
  { slotTimer := Config.slotPeriod, slotCount := 0, slotCursor := 0, discoveryCursor := 15, slot := none,
    received := [], garbled := 0, silent := 0, records := Vector.replicate 15 HandsetRecord.offline,
    changed := none, sent := [] }

/-- The queue of a room after a device reset (R147, R148, R155). -/
def RequestQueue.start : RequestQueue := ⟨[], 1, .stopped, false, none⟩

/-- Every kind enabled (R172). -/
def NoticeMask.all : NoticeMask :=
  ⟨true, true, true, true, true, true, true, true, true, true, true, true⟩

/-- A room after a device reset (R19). -/
def Room.start : Room :=
  { phase := .dark, reasons := ⟨false, false⟩, settings := Settings.default, markTimer := .stopped,
    cueTimer := .stopped, holdTimer := .stopped, staleTimer := .stopped, timeline := Timeline.start,
    lyrics := Lyrics.start, compositor := Compositor.start, video := FrameManager.start,
    mics := ⟨MicChannel.start, MicChannel.start⟩, singers := ⟨Singer.start, Singer.start⟩,
    melody := Melody.start, result := none, line := RequestLine.start, queue := RequestQueue.start,
    mask := NoticeMask.all }

/-- The engine after a device reset (R99, R107). -/
def Engine.start : Engine := ⟨none, 7, none, none⟩

/-- The link interface in its reset state (R19), with the link and reset line at the levels given. -/
def Link.start (up resetLine : Bool) (cause : ReadyCause) : Link :=
  { up := up, resetLine := resetLine, readyCause := cause, cellsDiscarded := 0, creditStalls := 0,
    results := [], notices := [], pendingPairs := [], transmit := none, lastSent := 7,
    micWaiting := Vector.replicate 8 none }

/-- The part just after power-on (R19): the starting state, READY raised with cause POWER_ON, no command
waiting, the reset line released and the link not yet up (both DESIGN CHOICE, log entry 1). -/
def State.reset : State :=
  { pending := [], onLink := [],
    link := { Link.start false false .powerOn with notices := [⟨none, .ready⟩] },
    rooms := Vector.replicate 4 Room.start, glyphs := GlyphStore.empty, engine := Engine.start,
    handed := [], cuts := 0 }

end Sys2Proof.Machine
end

