-- ==== Sys2Proof/Machine/Clock.lean ====
section
/-! DEFINITION. The passing of real time: what a millisecond, one period of a room's time base (R23), takes off
the room's timers that run (R3, R134, R155). A timer that has come to 0 expires in an event of its own (log
entry 4). -/

namespace Sys2Proof.Machine

/-- A running timer a millisecond later. -/
def Timer.elapse : Timer → Timer
  | .stopped => .stopped
  | .running n => .running (n - 1)

/-- A running video-stale timer a millisecond later; a suspended one keeps its time (R15). -/
def StaleTimer.elapse : StaleTimer → StaleTimer
  | .stopped => .stopped
  | .running n => .running (n - 1)
  | .suspended n => .suspended n

/-- A room's timers a millisecond later. -/
def Room.elapse (rm : Room) : Room :=
  { rm with
    markTimer := rm.markTimer.elapse, cueTimer := rm.cueTimer.elapse, holdTimer := rm.holdTimer.elapse
    staleTimer := rm.staleTimer.elapse
    line := { rm.line with slotTimer := rm.line.slotTimer - 1 }
    queue := { rm.queue with offerTimer := rm.queue.offerTimer.elapse } }

end Sys2Proof.Machine
end

