-- ==== Sys2Proof/Machine/Ops.lean ====
section
/-! DEFINITION. The operations that every block shares: saturating counters and clamps, the byte memories
(pictures and glyph cells), hand-overs between blocks, notice events, news for handsets, and the removal
and offering of queue entries. -/

namespace Sys2Proof.Machine

/-! ## Numbers -/

/-- A counter raised by one, saturating at 65,535. -/
def satInc (n : Nat) : Nat := if n < Config.counterMax then n + 1 else n

/-- `n` held within lo..hi (Conventions, Arithmetic). -/
def clampNat (lo hi n : Nat) : Nat := if n < lo then lo else if hi < n then hi else n

/-- `n` held within lo..hi. -/
def clampInt (lo hi n : Int) : Int := if n < lo then lo else if hi < n then hi else n

/-! ## Byte memories

A memory lists the bytes that differ from what an unlisted address reads as, by rising address. -/

/-- What an unlisted byte of a picture reads as: the black picture, Y 0, Y 0, Cb 128, Cr 128 for each pair
of columns (R79, R80). -/
def blackByte (a : Nat) : Byte := if a % 4 < 2 then 0 else 128

/-- What an unlisted cell of the glyph store reads as: pixel code 0. -/
def clearCell (_a : Nat) : Byte := 0

/-- The byte at an address. -/
def memRead (unlisted : Nat → Byte) (m : List Host.Cell) (a : Nat) : Byte :=
  (m.lookup a).getD (unlisted a)

/-- The listed form of bytes that stand from an address on. -/
def memBlock (unlisted : Nat → Byte) : Nat → List Byte → List Host.Cell
  | _, [] => []
  | a, b :: bs =>
    if b = unlisted a then memBlock unlisted (a + 1) bs else (a, b) :: memBlock unlisted (a + 1) bs

/-- The memory with bytes written from an address on. -/
def memWrite (unlisted : Nat → Byte) (m : List Host.Cell) (a : Nat) (bs : List Byte) : List Host.Cell :=
  m.filter (fun c => c.1 < a) ++ memBlock unlisted a bs ++ m.filter (fun c => a + bs.length ≤ c.1)

/-- The canonical form of a memory: addresses strictly rising, and no entry equal to what an unlisted
address reads as. -/
abbrev MemWf (unlisted : Nat → Byte) (m : List Host.Cell) : Prop :=
  m.Pairwise (fun c d => c.1 < d.1) ∧ ∀ c ∈ m, c.2 ≠ unlisted c.1

/-! ## Hand-overs -/

/-- The first item of a list that `f` accepts, and the list without it. -/
def takeFirst {α β : Type} (f : α → Option β) : List α → Option (β × List α)
  | [] => none
  | x :: xs =>
    match f x with
    | some y => some (y, xs)
    | none =>
      match takeFirst f xs with
      | some (y, rest) => some (y, x :: rest)
      | none => none

/-- Hands an item on, behind those handed on before it. -/
def State.hand (h : HandOver) (s : State) : State := { s with handed := s.handed ++ [h] }

/-- The clock changes handed to the readers of one room (R28). -/
def HandOver.isClockOf (r : RoomId) : HandOver → Bool
  | .toGuard q _ => q = r
  | .toLyrics q _ => q = r
  | .toScore q _ => q = r
  | _ => false

/-- The detents handed on for one room (R36). -/
def HandOver.isDetentOf (r : RoomId) : HandOver → Bool
  | .detent q _ => q = r
  | _ => false

/-- The VIDEO cells handed on for one room (R165). -/
def HandOver.isVideoOf (r : RoomId) : HandOver → Bool
  | .video q _ => q = r
  | _ => false

/-- Takes back what was handed on and not yet taken, and answers to `which`. -/
def State.dropHanded (which : HandOver → Bool) (s : State) : State :=
  { s with handed := s.handed.filter (fun h => !which h) }

/-! ## Notice events (R170, R171) -/

/-- The place of a kind in the kind order (R170). -/
def NoticeKind.index : NoticeKind → Nat
  | .ready => 0
  | .offer => 1
  | .offerTimeout => 2
  | .cueTimeout => 3
  | .songStarted => 4
  | .paused => 5
  | .resumed => 6
  | .keyChanged => 7
  | .result => 8
  | .queueChanged => 9
  | .handsetChanged => 10
  | .lyricSkipped => 11
  | .videoStale => 12

/-- The mask's flag for a kind; READY has none and always enters (R170). -/
def NoticeMask.allows (m : NoticeMask) : NoticeKind → Bool
  | .ready => true
  | .offer => m.offer
  | .offerTimeout => m.offerTimeout
  | .cueTimeout => m.cueTimeout
  | .songStarted => m.songStarted
  | .paused => m.paused
  | .resumed => m.resumed
  | .keyChanged => m.keyChanged
  | .result => m.result
  | .queueChanged => m.queueChanged
  | .handsetChanged => m.handsetChanged
  | .lyricSkipped => m.lyricSkipped
  | .videoStale => m.videoStale

/-- The order in which pending pairs move to the queue: the device pair, then the lower room, and within a
room the earlier kind (R171). -/
def NoticePair.rank (p : NoticePair) : Nat :=
  match p.room with
  | none => p.kind.index
  | some r => 13 * (r.val + 1) + p.kind.index

/-- A pair put in its place among pending pairs. -/
def insertPair (p : NoticePair) : List NoticePair → List NoticePair
  | [] => [p]
  | q :: qs => if p.rank < q.rank then p :: q :: qs else q :: insertPair p qs

/-- An event that enters the notice queue: merged, queued, or put in the pending set (R171). -/
def Link.enter (p : NoticePair) (l : Link) : Link :=
  if p ∈ l.notices ∨ p ∈ l.pendingPairs then l
  else if l.notices.length < Config.noticePlaces then { l with notices := l.notices ++ [p] }
  else { l with pendingPairs := insertPair p l.pendingPairs }

/-- An entry leaves the notice queue, and the lowest pending pair takes the tail (R171). -/
def Link.leaveNotice (rest : List NoticePair) (l : Link) : Link :=
  match l.pendingPairs with
  | [] => { l with notices := rest }
  | p :: ps => { l with notices := rest ++ [p], pendingPairs := ps }

/-- A room's event of a kind is raised: dropped when the mask disables the kind (R170). -/
def State.raise (r : RoomId) (k : NoticeKind) (s : State) : State :=
  if (s.room r).mask.allows k then { s with link := s.link.enter ⟨some r, k⟩ } else s

/-- The READY notice is raised for the device (R19, R170). -/
def State.raiseReady (s : State) : State := { s with link := s.link.enter ⟨none, .ready⟩ }

/-! ## News (R144) -/

/-- News placed in an outbox: an ONLINE handset's outbox takes it at the end, and a full one loses its
oldest item. When the open slot's poll carried that item, the slot notes that it has left (R139, R144). -/
def RequestLine.placeNews (h : HandsetId) (n : NewsItem) (ln : RequestLine) : RequestLine :=
  let x := ln.records.get h
  if !x.online then ln
  else if x.outbox.length < Config.outboxPlaces then
    { ln with records := ln.records.set h { x with outbox := x.outbox ++ [n] } }
  else
    { ln with
      records := ln.records.set h { x with outbox := x.outbox.tail ++ [n] }
      slot := ln.slot.map fun o => if o.handset = h then { o with newsGone := true } else o }

/-- News of a room placed for a handset. -/
def State.placeNews (r : RoomId) (h : HandsetId) (k : NewsKind) (ticket : Nat) (s : State) : State :=
  s.modRoom r fun rm => { rm with line := rm.line.placeNews h ⟨k, ticket⟩ }

/-! ## Queue entries and offers (R147, R151, R155, R156) -/

/-- The head of a queue. -/
def RequestQueue.head? (q : RequestQueue) : Option Entry := q.entries.head?

/-- The entry that holds a ticket. -/
def RequestQueue.find? (q : RequestQueue) (ticket : Nat) : Option Entry :=
  q.entries.find? (fun e => e.ticket = ticket)

/-- The head put in another state. -/
def RequestQueue.setHead (q : RequestQueue) (st : EntryState) : RequestQueue :=
  match q.entries with
  | [] => q
  | e :: es => { q with entries := { e with state := st } :: es }

/-- The entry with a ticket leaves the queue: an offer of it ends, and the lapsed ticket becomes none when
it is that ticket (R155). -/
def RequestQueue.remove (e : Entry) (q : RequestQueue) : RequestQueue :=
  { q with
    entries := q.entries.filter (fun x => x.ticket ≠ e.ticket)
    offerTimer := if e.state = .offered then .stopped else q.offerTimer
    lapsed := if q.lapsed = some e.ticket then none else q.lapsed }

/-- The offer of a room's head (R156). -/
def State.makeOffer (r : RoomId) (e : Entry) (s : State) : State :=
  ((s.modRoom r fun rm =>
      { rm with queue := { rm.queue.setHead .offered with
          offerTimer := .running (1000 * rm.settings.offerTimeout) } }).placeNews r e.owner .nextUp
    e.ticket).raise r .offer

/-- An offer trigger of a room (R156). -/
def State.offerTrigger (r : RoomId) (s : State) : State :=
  if (s.room r).phase = .attract ∧ (s.room r).queue.suspended = false then
    match (s.room r).queue.head? with
    | some e => if e.state = .queued then s.makeOffer r e else s
    | none => s
  else s

/-- A queue change of a room, but for the offer trigger it may be: QUEUE_CHANGED is raised and the
suspension cleared (R151). -/
def State.noteQueueChange (r : RoomId) (s : State) : State :=
  (s.raise r .queueChanged).modRoom r fun rm => { rm with queue := { rm.queue with suspended := false } }

/-- A queue change of a room (R151); the trigger makes no offer outside ATTRACT. -/
def State.queueChange (r : RoomId) (s : State) : State := (s.noteQueueChange r).offerTrigger r

/-- An entry leaves a room's queue, with no more said of it. -/
def State.removeEntry (r : RoomId) (e : Entry) (s : State) : State :=
  s.modRoom r fun rm => { rm with queue := rm.queue.remove e }

end Sys2Proof.Machine
end

