-- ==== Sys2Proof/Machine/Operands.lean ====
section
/-! DEFINITION. The operand forms: numbers in payloads, and the records of chapter 11 read from the bytes
of a cell or of a handset message. A reader answers none where the owner refuses BAD_RECORD. -/

namespace Sys2Proof.Machine

/-! ## Numbers in a payload, most significant byte first (chapter 11) -/

/-- The byte at an offset. -/
def u8 (bs : List Byte) (i : Nat) : Nat := (bs.getD i 0).toNat

/-- The two bytes from an offset on. -/
def u16 (bs : List Byte) (i : Nat) : Nat := 256 * u8 bs i + u8 bs (i + 1)

/-- The three bytes from an offset on. -/
def u24 (bs : List Byte) (i : Nat) : Nat := 256 * u16 bs i + u8 bs (i + 2)

/-- The four bytes from an offset on. -/
def u32 (bs : List Byte) (i : Nat) : Nat := 65536 * u16 bs i + u16 bs (i + 2)

/-- A signed byte, in two's complement. -/
def i8 (bs : List Byte) (i : Nat) : Int := (bs.getD i 0).toInt

/-- A byte that holds a number. -/
def byteOf (n : Nat) : Byte := BitVec.ofNat 8 n

/-- A number as one, two or four bytes. -/
def be1 (n : Nat) : List Byte := [byteOf n]
def be2 (n : Nat) : List Byte := [byteOf (n / 256), byteOf n]
def be4 (n : Nat) : List Byte :=
  [byteOf (n / 16777216), byteOf (n / 65536), byteOf (n / 256), byteOf n]

/-- A signed number as one byte. -/
def beInt (n : Int) : List Byte := [BitVec.ofInt 8 n]

/-! ## Downstream cells (11.1) -/

/-- One downstream cell as the intake reads it (R164, R178). -/
structure DownCell where
  kind : Byte
  room : Byte
  tag : Byte
  payload : List Byte
  deriving DecidableEq, Repr

/-- The first cell of the bytes on the link, and the bytes that follow it: five header bytes, then as many
payload bytes as the length field gives (R178); none when not all of it has arrived. -/
def nextCell : List Byte → Option (DownCell × List Byte)
  | kind :: room :: tag :: high :: low :: rest =>
    let n := 256 * high.toNat + low.toNat
    if n ≤ rest.length then some (⟨kind, room, tag, rest.take n⟩, rest.drop n) else none
  | _ => none

/-- The bytes of a downstream cell, header first (11.1). -/
def DownCell.bytes (c : DownCell) : List Byte := [c.kind, c.room, c.tag] ++ be2 c.payload.length ++ c.payload

/-! ## Enumerated fields (11.2) -/

/-- on/off fields and mask flags. -/
def flagOf : Nat → Option Bool
  | 0 => some false
  | 1 => some true
  | _ => none

/-- The display mode codes. -/
def displayModeOf : Nat → Option DisplayMode
  | 0 => some .hz60
  | 1 => some .hz50
  | _ => none

/-- The mic part codes; BOTH names no value there (R179). -/
def micPartOf : Nat → Option MicPart
  | 0 => some .none
  | 1 => some .a
  | 2 => some .b
  | _ => none

/-- The part codes of a line or a note; NONE names no value there (R179). -/
def partOf : Nat → Option Part
  | 1 => some .a
  | 2 => some .b
  | 3 => some .both
  | _ => none

/-- The band kind codes. -/
def bandKindOf : Nat → Option BandKind
  | 0 => some .video
  | 1 => some .lyricUpper
  | 2 => some .lyricLower
  | 3 => some .score
  | 4 => some .queue
  | 5 => some .blank
  | _ => none

/-- The alignment codes. -/
def alignmentOf : Nat → Option Alignment
  | 0 => some .left
  | 1 => some .center
  | 2 => some .right
  | _ => none

/-- The state mask byte, its values 16 and above ignored (R179). -/
def stateMaskOf (n : Nat) : StateMask :=
  ⟨n.testBit 0, n.testBit 1, n.testBit 2, n.testBit 3⟩

/-! ## ROOM_SETTINGS (R16, R17) -/

/-- The settings record as the payload gives it, each numeric field over its whole width; none when an
enumerated field names no value. -/
def readSettings (bs : List Byte) : Option Settings := do
  let mode ← displayModeOf (u8 bs 0)
  let octave ← flagOf (u8 bs 11)
  let mic1 ← micPartOf (u8 bs 20)
  let mic2 ← micPartOf (u8 bs 21)
  let repeats ← flagOf (u8 bs 22)
  some
    { displayMode := mode, preroll := u16 bs 1, linger := u16 bs 3, resultHold := u8 bs 5,
      offerTimeout := u8 bs 6, cueTimeout := u8 bs 7, markTimeout := u16 bs 8, tolerance := u8 bs 10,
      octaveAllowance := octave, silenceThreshold := u32 bs 12, voicingFactor := u8 bs 16,
      onsetWindow := u8 bs 17, keyGrace := u16 bs 18, micParts := ⟨mic1, mic2⟩,
      allowRepeats := repeats, handsetLimit := u8 bs 23, defaultTempo := u8 bs 24,
      digitBase := u16 bs 25 }

/-- Every numeric field of a settings record held within its range (R16, R17). -/
def Settings.clamped (t : Settings) : Settings :=
  { t with
    preroll := clampNat 500 5000 t.preroll
    linger := clampNat 0 3000 t.linger
    resultHold := clampNat 3 30 t.resultHold
    offerTimeout := clampNat 1 10 t.offerTimeout
    cueTimeout := clampNat 2 30 t.cueTimeout
    markTimeout := clampNat 100 2000 t.markTimeout
    tolerance := clampNat 0 1 t.tolerance
    silenceThreshold := clampNat 0 409600 t.silenceThreshold
    voicingFactor := clampNat 1 16 t.voicingFactor
    onsetWindow := clampNat 20 200 t.onsetWindow
    keyGrace := clampNat 0 500 t.keyGrace
    handsetLimit := clampNat 1 8 t.handsetLimit
    defaultTempo := clampNat 80 120 t.defaultTempo
    digitBase := clampNat 0 1014 t.digitBase }

/-! ## NOTICE_MASK (R172) -/

/-- The twelve flags in kind order; none when one names neither enabled nor disabled. -/
def readMask (bs : List Byte) : Option NoticeMask := do
  let f0 ← flagOf (u8 bs 0)
  let f1 ← flagOf (u8 bs 1)
  let f2 ← flagOf (u8 bs 2)
  let f3 ← flagOf (u8 bs 3)
  let f4 ← flagOf (u8 bs 4)
  let f5 ← flagOf (u8 bs 5)
  let f6 ← flagOf (u8 bs 6)
  let f7 ← flagOf (u8 bs 7)
  let f8 ← flagOf (u8 bs 8)
  let f9 ← flagOf (u8 bs 9)
  let f10 ← flagOf (u8 bs 10)
  let f11 ← flagOf (u8 bs 11)
  some ⟨f0, f1, f2, f3, f4, f5, f6, f7, f8, f9, f10, f11⟩

/-! ## BAND_TABLE (R65, R66) and PALETTE (R68) -/

/-- The band of eight bytes that stands at an offset. -/
def readBand (bs : List Byte) (i : Nat) : Option Band := do
  let kind ← bandKindOf (u8 bs (i + 2))
  let alignment ← alignmentOf (u8 bs (i + 4))
  some ⟨u16 bs i, kind, u8 bs (i + 3), alignment, u16 bs (i + 5), stateMaskOf (u8 bs (i + 7))⟩

/-- A band's numeric fields held within their ranges (R66). -/
def Band.clamped (b : Band) : Band :=
  { b with
    height := clampNat 1 720 b.height
    dim := clampNat 0 7 b.dim
    margin := clampNat 0 320 b.margin }

/-- The band table of a payload, before clamping; none when it is refused. -/
def readBands (bs : List Byte) : Option (List Band) :=
  let n := u8 bs 0
  if bs.length = 1 + 8 * n ∧ 1 ≤ n ∧ n ≤ 12 then
    (List.range n).mapM fun k => readBand bs (1 + 8 * k)
  else none

/-- The colour at an offset. -/
def readColour (bs : List Byte) (i : Nat) : Colour :=
  ⟨bs.getD i 0, bs.getD (i + 1) 0, bs.getD (i + 2) 0⟩

/-- The three colours of a part at an offset. -/
def readPart (bs : List Byte) (i : Nat) : PartColours :=
  ⟨readColour bs i, readColour bs (i + 3), readColour bs (i + 6)⟩

/-- The palette of a payload; none when it does not carry ten colours. -/
def readPalette (bs : List Byte) : Option Palette :=
  if bs.length = 30 then
    some ⟨readPart bs 0, readPart bs 9, readPart bs 18, readColour bs 27⟩
  else none

/-! ## GLYPH_LOAD (R41) and PITCH_CELLS (R108) -/

/-- The four pixel codes of a byte, the first in its two most significant bits (11.2). -/
def unpackPixels (b : Byte) : List Byte := [b >>> 6 &&& 3, b >>> 4 &&& 3, b >>> 2 &&& 3, b &&& 3]

/-- A glyph to load: its code, its width and its 40 × width pixel codes. -/
structure GlyphRecord where
  code : Nat
  width : Nat
  pixels : List Byte
  deriving DecidableEq, Repr

/-- The glyph of a payload; none when the first check of R41 fails. -/
def readGlyph (bs : List Byte) : Option GlyphRecord :=
  let code := u16 bs 0
  let width := u8 bs 2
  if 3 ≤ bs.length ∧ code ≤ 1023 ∧ 4 ≤ width ∧ width ≤ 48 ∧ bs.length = 3 + 10 * width then
    some ⟨code, width, (bs.drop 3).flatMap unpackPixels⟩
  else none

/-- The pairs of a PITCH_CELLS payload; none when it does not carry exactly 45. -/
def readPitchCells (bs : List Byte) : Option (List PitchCell) :=
  if bs.length = 180 then
    some ((List.range 45).map fun k => ⟨u16 bs (4 * k), u16 bs (4 * k + 2)⟩)
  else none

/-! ## LYRIC_LINE (R45) -/

/-- The syllable of eight bytes that stands at an offset. -/
def readSyllable (bs : List Byte) (i : Nat) : Syllable :=
  ⟨u8 bs i, u8 bs (i + 1), u32 bs (i + 2), u16 bs (i + 6)⟩

/-- The syllables partition `n` glyphs in order, from glyph `next` on (R45). -/
def partitions (n : Nat) : Nat → List Syllable → Bool
  | next, [] => next = n
  | next, y :: ys => y.first = next && 1 ≤ y.count && partitions n (next + y.count) ys

/-- The onsets do not fall from `low` on, and each lies before `stop` (R45). -/
def onsetsOrdered (stop : Nat) : Nat → List Syllable → Bool
  | _, [] => true
  | low, y :: ys => low ≤ y.onset && y.onset < stop && onsetsOrdered stop y.onset ys

/-- The line of a payload, LOADED, its durations as sent; none when the record is not well formed (R45). -/
def readLine (bs : List Byte) : Option Line :=
  let n := u8 bs 12
  let k := u8 bs 13
  let start := u32 bs 4
  let stop := u32 bs 8
  let glyphs := (List.range n).map fun i => u16 bs (14 + 2 * i)
  let syllables := (List.range k).map fun i => readSyllable bs (14 + 2 * n + 8 * i)
  match partOf (u8 bs 3) with
  | none => none
  | some part =>
    if 14 ≤ bs.length ∧ bs.length = 14 + 2 * n + 8 * k ∧ u8 bs 2 ≤ 1 ∧ start < stop
        ∧ stop ≤ Config.songTimeMax ∧ 1 ≤ n ∧ n ≤ 48 ∧ glyphs.all (· ≤ 1023) ∧ 1 ≤ k ∧ k ≤ 24
        ∧ partitions n 0 syllables ∧ onsetsOrdered stop start syllables then
      some
        { id := u16 bs 0, row := if u8 bs 2 = 0 then 0 else 1, part := part, start := start,
          stop := stop, glyphs := glyphs, syllables := syllables, state := .loaded }
    else none

/-! ## NOTE_EVENTS (R114) -/

/-- A note event of a cell. -/
structure NoteEvent where
  start : Nat
  stop : Nat
  number : Nat
  part : Part
  deriving DecidableEq, Repr

/-- The note event of ten bytes that stands at an offset; none when a field lies outside its range. -/
def readNoteEvent (bs : List Byte) (i : Nat) : Option NoteEvent := do
  let part ← partOf (u8 bs (i + 9))
  if u32 bs i < u32 bs (i + 4) ∧ u32 bs (i + 4) ≤ Config.songTimeMax ∧ u8 bs (i + 8) ≤ 127 then
    some ⟨u32 bs i, u32 bs (i + 4), u8 bs (i + 8), part⟩
  else none

/-- The events of a payload; none when the second check of R114 fails. -/
def readNoteEvents (bs : List Byte) : Option (List NoteEvent) :=
  let n := u8 bs 0
  if bs.length = 1 + 10 * n ∧ 1 ≤ n ∧ n ≤ 16 then
    (List.range n).mapM fun k => readNoteEvent bs (1 + 10 * k)
  else none

/-! ## VIDEO (R80, R82) -/

/-- One segment of a frame: its frame sequence, its index line × 4 + segment, and its bytes. -/
structure Segment where
  sequence : Nat
  index : Nat
  bytes : List Byte
  deriving DecidableEq, Repr

/-- The segment of a VIDEO payload; none when the cell is malformed (R82). -/
def readSegment (bs : List Byte) : Option Segment :=
  if bs.length = 645 ∧ u16 bs 2 < 720 ∧ u8 bs 4 < 4 then
    some ⟨u16 bs 0, 4 * u16 bs 2 + u8 bs 4, bs.drop 5⟩
  else none

/-! ## Characters and messages on a handset line (R131, R132, R180) -/

/-- The parity bit that gives a byte an even number of ones (R131). -/
def evenParity (b : Byte) : Bool := (List.range 8).foldl (fun p i => p ^^ b.getLsbD i) false

/-- The character in which the part sends a byte: its parity even and its stop bit there (R131). -/
def txChar (b : Byte) : TxChar := ⟨b, evenParity b, true⟩

/-- An odd number of ones in the data bits and the parity bit, or no stop bit, or an overrun (R131). -/
def rxBad (c : RxChar) : Bool := c.parity != evenParity c.data || !c.stop || c.overrun

/-- A message of a handset (R132). -/
inductive Message where
  | idle
  | request (song : Nat) (duet : Bool) (preset : Option Int) (priority : Bool)
  | cancel (ticket : Nat)
  | statusAsk
  deriving DecidableEq, Repr

/-- The message a kind byte and a payload carry; none when the kind is none of the four or the payload has
another length than the kind's. A preset is clamped, and taken as absent when its flag is clear (R141,
R180). -/
def readMessage (kind : Nat) (bs : List Byte) : Option Message :=
  match kind, bs.length with
  | 0, 0 => some .idle
  | 1, 7 =>
    some (.request (u24 bs 0) (u8 bs 3 ≠ 0)
      (if u8 bs 4 ≠ 0 then some (clampInt (-6) 6 (i8 bs 5)) else none) (u8 bs 6 ≠ 0))
  | 2, 1 => some (.cancel (u8 bs 0))
  | 3, 0 => some .statusAsk
  | _, _ => none

/-- The exclusive-or of bytes, the check byte of a message (R132). -/
def checkByte (bs : List Byte) : Byte := bs.foldl (· ^^^ ·) 0

/-- The characters of a reply, when as many have arrived as its length byte calls for. An error in the
length byte leaves the reply without an end (R131, R136). -/
def completeReply (cs : List RxChar) : Option (List RxChar) :=
  match cs[3]? with
  | none => none
  | some c =>
    if rxBad c then none
    else if 5 + c.data.toNat ≤ cs.length then some (cs.take (5 + c.data.toNat)) else none

/-- The sequence bit and the message of an ungarbled reply to a poll of a handset; none for a garbled one
(R132, R180). -/
def judgeReply (h : HandsetId) (cs : List RxChar) : Option (Bool × Message) :=
  let bs := cs.map (·.data)
  let body := bs.dropLast
  if cs.any rxBad then none
  else if checkByte body ≠ bs.getLastD 0 then none
  else if u8 bs 0 ≠ h.address then none
  else
    match flagOf (u8 bs 2), readMessage (u8 bs 1) (body.drop 4) with
    | some bit, some m => some (bit, m)
    | _, _ => none

end Sys2Proof.Machine
end

