-- ==== Sys2Proof/Machine/Timeline.lean ====
section
/-! DEFINITION. The song timeline of a room: tick arithmetic and credits (R24, R25), time marks (R29,
R30), the values of song opening and of a close (R22, R26), and the key knob (R34 to R37). -/

namespace Sys2Proof.Machine

/-- The end guard: the song length plus 3,000 song ms, while there is a song length (R11, R22). -/
def Timeline.guard (t : Timeline) : Option Nat := t.songLength.map (· + Config.guardMargin)

/-- A song position held at the end guard (R28, R29). -/
def Timeline.cap (t : Timeline) (p : Nat) : Nat :=
  match t.guard with
  | some g => min p g
  | none => p

/-- The advances a tick counts (R24). -/
def Timeline.due (t : Timeline) : Nat := (t.accumulator + t.tempo) / 100

/-- The tick arithmetic in PLAYING: accumulator, advances due and credits (R24, R25). -/
def Timeline.advance (t : Timeline) : Timeline :=
  let due := t.due
  let t := { t with accumulator := (t.accumulator + t.tempo) % 100 }
  if 0 < t.catchUp then { t with clock := t.cap (t.clock + due + 1), catchUp := t.catchUp - 1 }
  else { t with clock := t.cap (t.clock + (due - min due t.hold)), hold := t.hold - min due t.hold }

/-- The lead of a time mark over the clock, its position held at the end guard (R29). -/
def Timeline.lead (t : Timeline) (p : Nat) : Int := (t.cap p : Int) - (t.clock : Int)

/-- A time mark makes a forward jump when it leads by more than 40 song ms (R30). -/
def Timeline.jumps (t : Timeline) (p : Nat) : Bool := 40 < t.lead p

/-- A time mark applied: a jump, a catch-up credit, no credit, or a hold credit (R29). -/
def Timeline.mark (t : Timeline) (p : Nat) : Timeline :=
  let m := t.lead p
  if 40 < m then { t with clock := t.cap p, catchUp := 0, hold := 0 }
  else if 3 ≤ m then { t with catchUp := m.toNat, hold := 0 }
  else if -2 ≤ m then { t with catchUp := 0, hold := 0 }
  else { t with catchUp := 0, hold := (-m).toNat }

/-- The timeline at an accepted SONG_OPEN (R22, R26). -/
def Timeline.openSong (t : Timeline) (tempo length : Nat) (preset : Option Int) : Timeline :=
  { t with
    clock := 0, tempo := tempo, accumulator := 0, catchUp := 0, hold := 0, songLength := some length
    keyOffset := preset.getD 0, keyStamp := 0 }

/-- The timeline after ROOM_CLOSE or ROOM_RESET: all but the knob filter cleared (R22, R39). -/
def Timeline.clear (t : Timeline) (defaultTempo : Nat) : Timeline :=
  { Timeline.start with tempo := defaultTempo, knobA := t.knobA, knobB := t.knobB }

/-! ## The key knob -/

/-- A knob line takes a sample: three equal newest samples make their level the accepted one (R34). -/
def KnobLine.sample (k : KnobLine) (x : Bool) : KnobLine :=
  let kept := (x :: k.samples).take 3
  ⟨kept, if kept = [x, x, x] then some x else k.level⟩

/-- The step of a transition from one accepted pair to another (R35): 0 for what is no valid one. -/
def knobStep (before after : Option Bool × Option Bool) : Int :=
  match before, after with
  | (some false, some false), (some true, some false) => 1
  | (some true, some false), (some true, some true) => 1
  | (some true, some true), (some false, some true) => 1
  | (some false, some true), (some false, some false) => 1
  | (some true, some false), (some false, some false) => -1
  | (some true, some true), (some true, some false) => -1
  | (some false, some true), (some true, some true) => -1
  | (some false, some false), (some false, some true) => -1
  | _, _ => 0

/-- The detent count after the step of a sampling instant (R35). -/
def Timeline.stepped (t : Timeline) (a b : Bool) : Int :=
  t.detents + knobStep (t.knobA.level, t.knobB.level) ((t.knobA.sample a).level, (t.knobB.sample b).level)

/-- The detent that a count makes: clockwise at +4, counter-clockwise at −4 (R36, R37). -/
def detentMade (count : Int) : Option Bool :=
  if 4 ≤ count then some true else if count ≤ -4 then some false else none

/-- A sampling instant: both filters take their samples, and the step is counted; the count that makes a
detent is reset (R34 to R36). -/
def Timeline.sampleKnob (t : Timeline) (a b : Bool) : Timeline :=
  { t with
    knobA := t.knobA.sample a, knobB := t.knobB.sample b
    detents := if (detentMade (t.stepped a b)).isSome then 0 else t.stepped a b }

/-- The room states in which a song is open (R5) and a detent is a key detent (R37). -/
def Phase.songOpen : Phase → Bool
  | .cueing | .playing | .paused => true
  | .dark | .attract | .result => false

/-- A detent changes the key: the room has a song open and the offset stays within −6..+6 (R37). -/
def Room.keyMoves (rm : Room) (d : Int) : Bool :=
  rm.phase.songOpen && -6 ≤ rm.timeline.keyOffset + d && rm.timeline.keyOffset + d ≤ 6

/-- A detent dealt with: it moves the key by one, up when it is clockwise, or is absorbed (R37). -/
def State.takeDetent (r : RoomId) (clockwise : Bool) (s : State) : State :=
  let d : Int := if clockwise then 1 else -1
  if (s.room r).keyMoves d then
    (s.modRoom r fun rm =>
      { rm with timeline := { rm.timeline with
          keyOffset := rm.timeline.keyOffset + d, keyStamp := rm.timeline.clock } }).raise r .keyChanged
  else s

/-! ## Clock changes (R28) -/

/-- The new clock value is handed to the room controller and the score unit. -/
def State.handClock (r : RoomId) (s : State) : State :=
  (s.hand (.toGuard r (s.room r).timeline.clock)).hand (.toScore r (s.room r).timeline.clock)

/-- A clock change is handed to all three readers (R28). -/
def State.handClockChange (r : RoomId) (jump : Bool) (s : State) : State :=
  (s.handClock r).hand (.toLyrics r jump)

/-- The knob sampled, and a detent that it makes handed on (R34 to R36; log entry 6). -/
def State.sampleKnob (r : RoomId) (a b : Bool) (s : State) : State :=
  let t := s.modRoom r fun rm => { rm with timeline := rm.timeline.sampleKnob a b }
  match detentMade ((s.room r).timeline.stepped a b) with
  | some clockwise => t.hand (.detent r clockwise)
  | none => t

/-- The clock of a PLAYING room advanced by a tick, a change of it being handed on (R24, R25, R28). -/
def State.advance (r : RoomId) (s : State) : State :=
  if (s.room r).phase = .playing then
    let t := s.modRoom r fun rm => { rm with timeline := rm.timeline.advance }
    if (t.room r).timeline.clock = (s.room r).timeline.clock then t else t.handClockChange r false
  else s

/-- A timeline tick (R23): a millisecond passes for the room's timers (log entry 4), the knob is sampled, and
the clock advances. -/
def State.tick (r : RoomId) (a b : Bool) (s : State) : State :=
  ((s.modRoom r Room.elapse).sampleKnob r a b).advance r

end Sys2Proof.Machine
end

