-- ==== Sys2Proof/Machine/Lyrics.lean ====
section
/-! DEFINITION. The lyric table unit: the glyph code table and glyph store (R40 to R43), the pools and
lists of lines (R46 to R49), and the evaluation of the lines' display states (R51 to R55). -/

namespace Sys2Proof.Machine

/-! ## Glyphs -/

/-- The entry of a glyph code; none when it is ABSENT (R40). -/
def GlyphStore.entry (g : GlyphStore) (code : Nat) : Option GlyphEntry := g.table.lookup code

/-- The table with the entry of one code replaced (R41, R42). -/
def setEntry (code : Nat) (e : GlyphEntry) (t : List (Nat × GlyphEntry)) : List (Nat × GlyphEntry) :=
  t.filter (fun x => x.1 < code) ++ (code, e) :: t.filter (fun x => code < x.1)

/-- A glyph's pixels appended at the fill pointer, and its code's entry pointed at them (R41, R42). -/
def GlyphStore.load (x : GlyphRecord) (g : GlyphStore) : GlyphStore :=
  { table := setEntry x.code ⟨g.fill, x.width⟩ g.table
    cells := memWrite clearCell g.cells g.fill x.pixels
    fill := g.fill + Config.glyphRows * x.width }

/-- A line that stands on its row: SHOWN, SINGING or DONE (R51). -/
def Line.onRow (l : Line) : Bool := l.state ≠ .loaded

/-- A room holds a line in SHOWN, SINGING or DONE (R43). -/
def Room.showsLine (rm : Room) : Bool := rm.lyrics.lines.any Line.onRow

/-- Some room holds a line in SHOWN, SINGING or DONE (R43). -/
def State.anyLineShown (s : State) : Bool :=
  (s.room 0).showsLine || (s.room 1).showsLine || (s.room 2).showsLine || (s.room 3).showsLine

/-- GLYPH_LOAD (R41, R42). -/
def State.glyphLoad (args : List Byte) (s : State) : State × Status :=
  match readGlyph args with
  | none => (s, .badRecord)
  | some x =>
    if Config.glyphCells < s.glyphs.fill + Config.glyphRows * x.width then (s, .noSpace)
    else ({ s with glyphs := s.glyphs.load x }, .ok)

/-- GLYPH_CLEAR (R43). -/
def State.glyphClear (s : State) : State × Status :=
  if s.anyLineShown then (s, .busy) else ({ s with glyphs := GlyphStore.empty }, .ok)

/-! ## Pools (R46) -/

/-- A count over the four rooms. -/
def State.total (f : Room → Nat) (s : State) : Nat :=
  f (s.room 0) + f (s.room 1) + f (s.room 2) + f (s.room 3)

/-- The line slots a list holds. -/
def Lyrics.lineCount (y : Lyrics) : Nat := y.lines.length

/-- The syllable slots a list holds. -/
def Lyrics.syllableCount (y : Lyrics) : Nat := (y.lines.map (·.syllables.length)).sum

/-- The line slots and the syllable slots in use in all rooms. -/
def State.linesUsed (s : State) : Nat := s.total (·.lyrics.lineCount)
def State.syllablesUsed (s : State) : Nat := s.total (·.lyrics.syllableCount)

/-! ## Evaluation (R52 to R55) -/

/-- A LOADED line whose end the clock has reached (R53). -/
def Line.overdue (t : Nat) (l : Line) : Bool := l.state = .loaded && l.stop ≤ t

/-- The skip step: overdue LOADED lines leave, the last of them kept as the skipped one (R53). -/
def Lyrics.skipStep (t : Nat) (y : Lyrics) : Lyrics :=
  { y with
    lines := y.lines.filter (fun l => !l.overdue t)
    lastSkipped := ((y.lines.filter (·.overdue t)).getLast?.map (·.id)).or y.lastSkipped }

/-- An occupant moved as far as the clock allows; none when it is retired (R54). -/
def Line.progress (t linger : Nat) (l : Line) : Option Line :=
  let l := if l.state = .shown ∧ l.start ≤ t then { l with state := .singing } else l
  let l := if l.state = .singing ∧ l.stop ≤ t then { l with state := .done } else l
  if l.state = .done ∧ l.stop + linger ≤ t then none else some l

/-- The occupant of a row moved, and the others left (R54). -/
def moveOccupant (row : Fin 2) (t linger : Nat) (ls : List Line) : List Line :=
  ls.filterMap fun l => if l.row = row ∧ l.onRow then l.progress t linger else some l

/-- The row's candidate, its first LOADED line, SHOWN when its preroll has come, and SINGING when its start
has (R54). -/
def showCandidate (row : Fin 2) (t preroll : Nat) : List Line → List Line
  | [] => []
  | l :: ls =>
    if l.row = row ∧ l.state = .loaded then
      if l.start ≤ t + preroll then
        { l with state := if l.start ≤ t then .singing else .shown } :: ls
      else l :: ls
    else l :: showCandidate row t preroll ls

/-- The occupant of a row, if any (R51). -/
def occupant (row : Fin 2) (ls : List Line) : Option Line := ls.find? fun l => l.row = row && l.onRow

/-- The row step for one row (R54). -/
def rowStep (row : Fin 2) (t preroll linger : Nat) (ls : List Line) : List Line :=
  let ls := moveOccupant row t linger ls
  if (occupant row ls).isSome then ls else showCandidate row t preroll ls

/-- An evaluation of a list at clock t (R52). -/
def Lyrics.evaluate (t preroll linger : Nat) (y : Lyrics) : Lyrics :=
  let y := y.skipStep t
  { y with lines := rowStep 1 t preroll linger (rowStep 0 t preroll linger y.lines) }

/-- An evaluation of a room's lines at its song clock, preroll and linger; LYRIC_SKIPPED is raised when
lines are skipped (R52, R53). -/
def State.evaluate (r : RoomId) (s : State) : State :=
  let skips := (s.room r).lyrics.lines.any (·.overdue (s.room r).timeline.clock)
  let s := s.modRoom r fun rm =>
    { rm with lyrics := rm.lyrics.evaluate rm.timeline.clock rm.settings.preroll rm.settings.linger }
  if skips then s.raise r .lyricSkipped else s

/-- A room's lines cleared (R57), or retired on leaving RESULT (R58): the kept skipped id stays. -/
def Lyrics.clear (y : Lyrics) : Lyrics := { y with lines := [], lastLoaded := none }

/-! ## Loading a line (R48, R49) -/

/-- The syllables' durations held within the line (R49). -/
def Line.clamped (l : Line) : Line :=
  { l with syllables := l.syllables.map fun y => { y with duration := min y.duration (l.stop - y.onset) } }

/-- The status of an accepted line (R49). -/
def Line.loadStatus (l : Line) : Status := if l.clamped = l then .ok else .okClamped

/-- A start at or after a recorded one, when there is one. -/
def notBefore (start : Nat) (bound : Option Nat) : Bool := bound.all (· ≤ start)

/-- A new line's order condition (R48). -/
def Lyrics.newInOrder (y : Lyrics) (l : Line) : Bool :=
  notBefore l.start (y.lastLoaded.map (·.start)) && notBefore l.start (y.lines.getLast?.map (·.start))

/-- A replacement's order condition against the neighbours of the line it replaces, `before` being the
start of the line just before (R49). -/
def replacementInOrder (l : Line) : Option Nat → List Line → Bool
  | _, [] => false
  | before, x :: xs =>
    if x.id = l.id then notBefore l.start before && (xs.head?.map (·.start)).all (l.start ≤ ·)
    else replacementInOrder l (some x.start) xs

/-- Free syllable slots for a line beyond those a replaced line gives back (R46, R49). -/
def State.syllablesFit (r : RoomId) (need back : Nat) (s : State) : Bool :=
  (s.room r).lyrics.syllableCount + need ≤ Config.syllablesPerRoom + back
    && s.syllablesUsed + need ≤ Config.syllablePool + back

/-- A free line slot for a room (R46). -/
def State.lineFits (r : RoomId) (s : State) : Bool :=
  (s.room r).lyrics.lineCount < Config.linesPerRoom && s.linesUsed < Config.linePool

/-- A new line at the end of a list, and the last-loaded record naming it (R48). -/
def Lyrics.addLine (l : Line) (y : Lyrics) : Lyrics :=
  { y with lines := y.lines ++ [l], lastLoaded := some ⟨l.id, l.start⟩ }

/-- A LOADED line replaced in place; the last-loaded record takes the new start when it names the line
(R47, R49). -/
def Lyrics.replaceLine (l : Line) (y : Lyrics) : Lyrics :=
  { y with
    lines := y.lines.map fun x => if x.id = l.id then l else x
    lastLoaded := y.lastLoaded.map fun z => if z.id = l.id then ⟨z.id, l.start⟩ else z }

/-- An accepted line takes its place, and is evaluated at once in PLAYING (R48, R52). -/
def State.acceptLine (r : RoomId) (f : Lyrics → Lyrics) (s : State) : State :=
  let s := s.modRoom r fun rm => { rm with lyrics := f rm.lyrics }
  if (s.room r).phase = .playing then s.evaluate r else s

/-- LYRIC_LINE (R48, R49). -/
def State.lyricLine (r : RoomId) (args : List Byte) (s : State) : State × Status :=
  if !(s.room r).phase.songOpen then (s, .busy)
  else
    match readLine args with
    | none => (s, .badRecord)
    | some l =>
      match (s.room r).lyrics.lines.find? (fun x => x.id = l.id) with
      | some old =>
        if old.onRow then (s, .locked)
        else if !replacementInOrder l none (s.room r).lyrics.lines then (s, .order)
        else if !s.syllablesFit r l.syllables.length old.syllables.length then (s, .noSpace)
        else (s.acceptLine r (Lyrics.replaceLine l.clamped), l.loadStatus)
      | none =>
        if !(s.room r).lyrics.newInOrder l then (s, .order)
        else if !(s.lineFits r && s.syllablesFit r l.syllables.length 0) then (s, .noSpace)
        else (s.acceptLine r (Lyrics.addLine l.clamped), l.loadStatus)

end Sys2Proof.Machine
end

