-- ==== Sys2Proof/Machine/Score.lean ====
section
/-! DEFINITION. The score unit: the note pool and the loading of notes (R113 to R115), the passing of notes
(R116), the taking of analysis results (R118 to R125), the scores (R126, R127) and the result record
(R128). -/

namespace Sys2Proof.Machine

/-! ## Counting -/

/-- The grade of a frame (R121). -/
inductive Grade where
  | hit
  | near
  | miss
  | silent
  deriving DecidableEq, Repr

/-- A grade counted; at the limit of G it is made but not counted (R122). -/
def Singer.count (g : Grade) (x : Singer) : Singer :=
  if x.graded < Config.counterMax then
    match g with
    | .hit => { x with graded := x.graded + 1, hit := x.hit + 1 }
    | .near => { x with graded := x.graded + 1, near := x.near + 1 }
    | .miss => { x with graded := x.graded + 1, miss := x.miss + 1 }
    | .silent => { x with graded := x.graded + 1, silent := x.silent + 1 }
  else x

/-- An onset verdict counted (R125); PENDING, NOT_JUDGED and not applicable are no counted verdicts. -/
def Singer.judge (v : Onset) (x : Singer) : Singer :=
  if x.judged < Config.counterMax then
    match v with
    | .good => { x with judged := x.judged + 1, good := x.good + 1 }
    | .late => { x with judged := x.judged + 1, late := x.late + 1 }
    | .missed => { x with judged := x.judged + 1, missed := x.missed + 1 }
    | .pending | .notJudged | .notApplicable => x
  else x

/-- The notes in use in all rooms (R113). -/
def State.notesUsed (s : State) : Nat := s.total (·.melody.notes.length)

/-! ## Whose note it is (R113) -/

/-- A note of a part belongs to a channel of a mic part (R113). -/
def Part.belongsTo : Part → MicPart → Bool
  | .a, .a => true
  | .b, .b => true
  | .both, .a => true
  | .both, .b => true
  | _, _ => false

/-- Notes of singer A, and of singer B (R113). -/
def Part.ofA (p : Part) : Bool := p.belongsTo .a
def Part.ofB (p : Part) : Bool := p.belongsTo .b

/-! ## Loading notes (R114, R115) -/

/-- The order check of one event against the three records (R114). -/
def Melody.inOrder (y : Melody) (e : NoteEvent) : Bool :=
  notBefore e.start y.lastStart && (!e.part.ofA || notBefore e.start y.lastEndA)
    && (!e.part.ofB || notBefore e.start y.lastEndB)

/-- An onset slot as loading sets it (R115). -/
def firstOnset (p : Part) (m : MicPart) : Onset := if p.belongsTo m then .pending else .notApplicable

/-- One event loaded: a note at the end of the list, and the three records moved on (R115). -/
def Melody.add (parts : PerMic MicPart) (y : Melody) (e : NoteEvent) : Melody :=
  { notes := y.notes ++
      [{ start := e.start, stop := e.stop, number := e.number, part := e.part,
         previousEndA := y.lastEndA, previousEndB := y.lastEndB, seen := ⟨false, false⟩,
         onset := ⟨firstOnset e.part parts.one, firstOnset e.part parts.two⟩ }]
    lastStart := some e.start
    lastEndA := if e.part.ofA then some e.stop else y.lastEndA
    lastEndB := if e.part.ofB then some e.stop else y.lastEndB }

/-- A cell's events loaded in order; none when one fails the order check (R114, R115). -/
def Melody.addAll (parts : PerMic MicPart) : Melody → List NoteEvent → Option Melody
  | y, [] => some y
  | y, e :: es => if y.inOrder e then (y.add parts e).addAll parts es else none

/-- NOTE_EVENTS (R114, R115). -/
def State.noteEvents (r : RoomId) (args : List Byte) (s : State) : State × Status :=
  if !(s.room r).phase.songOpen then (s, .busy)
  else
    match readNoteEvents args with
    | none => (s, .badRecord)
    | some es =>
      match (s.room r).melody.addAll (s.room r).settings.micParts es with
      | none => (s, .order)
      | some y =>
        if (s.room r).melody.notes.length + es.length ≤ Config.notesPerRoom
            ∧ s.notesUsed + es.length ≤ Config.notePool then
          (s.modRoom r fun rm => { rm with melody := y }, .ok)
        else (s, .noSpace)

/-! ## Passing the notes (R116) -/

/-- A channel's counters when a note closes: in PLAYING a PENDING onset of a seen note is MISSED (R116). -/
def Note.closeFor (m : Mic) (n : Note) (x : Singer) : Singer :=
  if n.onset.get m = .pending ∧ n.seen.get m then x.judge .missed else x

/-- The counters of both channels when notes close in PLAYING. -/
def closeNotes (ns : List Note) (p : PerMic Singer) : PerMic Singer :=
  ns.foldl (fun p n => ⟨n.closeFor .mic1 p.one, n.closeFor .mic2 p.two⟩) p

/-- The pass of a room's notes at clock t (R116): closed notes leave the list, and only in PLAYING are
verdicts counted. Outside PLAYING and PAUSED it does nothing. -/
def Room.passNotes (t : Nat) (rm : Room) : Room :=
  let closing := rm.melody.notes.filter (fun n => n.stop ≤ t)
  let kept := { rm.melody with notes := rm.melody.notes.filter (fun n => t < n.stop) }
  match rm.phase with
  | .playing => { rm with melody := kept, singers := closeNotes closing rm.singers }
  | .paused => { rm with melody := kept }
  | .dark | .attract | .cueing | .result => rm

/-- The notes of a room cleared (R113). -/
def Room.clearNotes (rm : Room) : Room := { rm with melody := Melody.start }

/-! ## Taking an analysis result (R118 to R124) -/

/-- The note of the singer of a mic part that holds a stamp (R119). -/
def Note.holds (part : MicPart) (stamp : Nat) (n : Note) : Bool :=
  n.part.belongsTo part && n.start ≤ stamp && stamp < n.stop

/-- The end of the note of the channel's singer loaded before this one (R113, R124). -/
def Note.previousEnd (part : MicPart) (n : Note) : Option Nat :=
  match part with
  | .a => n.previousEndA
  | .b => n.previousEndB
  | .none => none

/-- A song position at or after the note's start less the onset window (R124). -/
def Note.nearStart (window : Nat) (n : Note) (position : Nat) : Bool := n.start ≤ position + window

/-- The onset verdict a result gives a PENDING slot, from the run start before the result (R124); PENDING
when it gives none. -/
def judgeOnset (part : MicPart) (m : Mic) (window : Nat) (run : Option Nat) (x : AnalysisResult)
    (n : Note) : Onset :=
  match x.measured, run with
  | none, _ => .pending
  | some _, none => if x.stamp ≤ n.start + window then .good else .late
  | some _, some start =>
    if n.seen.get m then .pending
    else if n.nearStart window start || (n.previousEnd part).any (n.nearStart window) then .good
    else .late

/-- The nearest whole number of octaves in a deviation, halves toward zero (R121). -/
def octaves (d : Int) : Int := d.sign * ((d.natAbs + 5) / 12 : Nat)

/-- The deviation after the octave fold, when it is allowed (R121). -/
def folded (allowance : Bool) (d : Int) : Int := if allowance then d - 12 * octaves d else d

/-- The grade of a graded frame against the effective reference r (R121). -/
def gradeOf (t : Settings) (r : Int) : Option MeasuredNote → Grade
  | none => .silent
  | some .under => .miss
  | some .over => .miss
  | some (.note n) =>
    let d := (folded t.octaveAllowance ((n : Int) - r)).natAbs
    if d ≤ t.tolerance then .hit else if d ≤ t.tolerance + 1 then .near else .miss

/-- The effective reference lies in the pitch cell table's range (R120). -/
def inTable (r : Int) : Bool := 40 ≤ r && r ≤ 84

/-- The run start after a result (R123). -/
def nextRun (run : Option Nat) (x : AnalysisResult) : Option Nat :=
  match x.measured with
  | none => none
  | some _ => some (run.getD x.stamp)

/-- The note after a result whose stamp it holds: seen, and its onset slot settled (R118, R120, R124). -/
def Note.take (rm : Room) (m : Mic) (x : AnalysisResult) (n : Note) : Note :=
  let part := rm.settings.micParts.get m
  let verdict :=
    if n.onset.get m ≠ .pending then n.onset.get m
    else if inTable ((n.number : Int) + rm.timeline.keyOffset) then
      judgeOnset part m rm.settings.onsetWindow (rm.singers.get m).runStart x n
    else .notJudged
  { n with seen := n.seen.set m true, onset := n.onset.set m verdict }

/-- The singer record after steps 2 and 3 for a result whose stamp a note holds (R118): the verdict the
slot takes is counted, and a graded frame's grade. -/
def Singer.take (rm : Room) (m : Mic) (x : AnalysisResult) (n : Note) (y : Singer) : Singer :=
  let r := (n.number : Int) + rm.timeline.keyOffset
  let y := if n.onset.get m = .pending then y.judge ((n.take rm m x).onset.get m) else y
  if inTable r ∧ rm.timeline.keyStamp + rm.settings.keyGrace ≤ x.stamp then
    y.count (gradeOf rm.settings r x.measured)
  else y

/-- The first note that holds a stamp changed. -/
def updateHolding (part : MicPart) (stamp : Nat) (f : Note → Note) : List Note → List Note
  | [] => []
  | n :: ns => if n.holds part stamp then f n :: ns else n :: updateHolding part stamp f ns

/-- A room after the score unit takes an analysis result of one of its channels in PLAYING (R118). -/
def Room.takeResult (m : Mic) (x : AnalysisResult) (rm : Room) : Room :=
  let part := rm.settings.micParts.get m
  let y := rm.singers.get m
  let y' :=
    match rm.melody.notes.find? (·.holds part x.stamp) with
    | some n => y.take rm m x n
    | none => y
  { rm with
    melody := { rm.melody with
      notes := updateHolding part x.stamp (fun n => n.take rm m x) rm.melody.notes }
    singers := rm.singers.set m { y' with runStart := nextRun y.runStart x } }

/-! ## Scores (R126, R127) -/

/-- The pitch score; meaningful while G is above 0. -/
def Singer.pitch (x : Singer) : Nat := 1000 * (4 * x.hit + 2 * x.near) / (4 * x.graded)

/-- The timing score. -/
def Singer.timing (x : Singer) : Nat := if x.judged = 0 then x.pitch else 1000 * x.good / x.judged

/-- The final score. -/
def Singer.final (x : Singer) : Nat := (7 * x.pitch + 3 * x.timing + 5) / 10

/-- The live score, or none for NOT_SCORED (R127). -/
def Singer.live (x : Singer) : Option Nat := if x.graded = 0 then none else some x.pitch

/-! ## The result record (R128) -/

/-- The singer entry of a microphone, from the counters as they stand (R128). -/
def Room.singerEntry (rm : Room) (m : Mic) : SingerEntry :=
  let x := rm.singers.get m
  let part := rm.settings.micParts.get m
  let unscored := part = .none ∨ x.graded = 0
  { part := part, notScored := unscored
    pitch := if unscored then 0 else x.pitch
    timing := if unscored then 0 else x.timing
    final := if unscored then 0 else x.final
    counts := { x with runStart := none }
    dropped := (rm.mics.get m).dropped }

/-- The result record made for the song of the head entry (R128). -/
def Room.makeResult (o : SongOutcome) (rm : Room) : Room :=
  match rm.queue.head? with
  | some e =>
    { rm with
      result := some ⟨e.ticket, e.song, o, ⟨rm.singerEntry .mic1, rm.singerEntry .mic2⟩⟩ }
  | none => rm

end Sys2Proof.Machine
end

