-- ==== Sys2Proof/Machine/Pitch.lean ====
section
/-! DEFINITION. The pitch computation (R102 to R106), the pitch cell table (R107 to R109), and the
analysis result (R110). -/

namespace Sys2Proof.Machine

/-- The sum of the distances of two sample runs. -/
def distance (xs ys : List Int) : Nat := (List.zipWith (fun x y => (x - y).natAbs) xs ys).sum

/-- The samples of the frame, the first half of the window. -/
def frameSamples : Nat := 200

/-- The smallest trial lag, and the number of lags (6.4). -/
def lagMin : Nat := 15
def lagCount : Nat := 186

/-- The energy E of a window's frame (R102). -/
def energy (y : List Int) : Nat := ((y.take frameSamples).map Int.natAbs).sum

/-- The difference D(L) at a lag (R102). -/
def difference (y : List Int) (lag : Nat) : Nat := distance (y.take frameSamples) (y.drop lag)

/-- The differences D(15) to D(200) (R103). -/
def differences (y : List Int) : List Nat := (List.range lagCount).map fun i => difference y (lagMin + i)

/-- The least of the differences, D_min (R103). -/
def leastOf : List Nat → Nat
  | [] => 0
  | [d] => d
  | d :: ds => min d (leastOf ds)

/-- The place of the smallest lag that attains D_min, L_min − 15 (R103). -/
def leastIndex (ds : List Nat) : Nat := ds.findIdx (· = leastOf ds)

/-- The offset of the refinement, in sixteenths, from a = D(L_min − 1), b = D_min, c = D(L_min + 1)
(R105). -/
def refineOffset (a b c : Int) : Int :=
  let den := a - 2 * b + c
  let num := 8 * (a - c)
  if den ≤ 0 then 0
  else clampInt (-8) 8 (num.sign * ((2 * num.natAbs + den) / (2 * den)))

/-- The refined period Lq of a voiced frame (R105, R106). -/
def refinedPeriod (ds : List Nat) : Nat :=
  let i := leastIndex ds
  let offset :=
    if i = 0 ∨ i + 1 = lagCount then 0
    else refineOffset (ds.getD (i - 1) 0) (ds.getD i 0) (ds.getD (i + 1) 0)
  (16 * ((lagMin + i : Nat) : Int) + offset).toNat

/-- The voicing test (R104). -/
def voiced (t : Settings) (e dMin : Nat) : Bool :=
  t.silenceThreshold ≤ e && 16 * dMin ≤ t.voicingFactor * e

/-- The computation on a window, under the settings of the channel's room (R102 to R106). -/
def computeWindow (t : Settings) (y : List Int) : Residue :=
  let ds := differences y
  { energy := energy y, differences := ds
    period := if voiced t (energy y) (leastOf ds) then some (refinedPeriod ds) else none }

/-- The lookup of a refined period in a table, from the cell of note `n` on (R109): a period above the
first cell's high lies UNDER, and one below the last cell's low lies OVER. -/
def lookupFrom (lq : Nat) : Nat → List PitchCell → MeasuredNote
  | _, [] => .over
  | n, c :: cs => if c.high < lq then .under else if c.low ≤ lq then .note n else lookupFrom lq (n + 1) cs

/-- The lookup of a refined period (R109); with an EMPTY table, which R109 rules out, a free value. -/
def lookupNote (table : Option (List PitchCell)) (lq : Nat) : MeasuredNote :=
  match table with
  | some cells => lookupFrom lq 40 cells
  | none => Config.noteWithoutTable lq

/-- Each cell within 1..4095, its low at most its high (R108). -/
def cellsInRange (cs : List PitchCell) : Bool := cs.all fun c => 1 ≤ c.low && c.low ≤ c.high && c.high ≤ 4095

/-- Each next note's high is one less than the low of the note before it (R107, R108). -/
def cellsContiguous : List PitchCell → Bool
  | [] => true
  | [_] => true
  | c :: d :: cs => d.high + 1 = c.low && cellsContiguous (d :: cs)

/-- No room is CUEING, PLAYING or PAUSED (R108). -/
def State.noSongOpen (s : State) : Bool :=
  !((s.room 0).phase.songOpen || (s.room 1).phase.songOpen || (s.room 2).phase.songOpen
    || (s.room 3).phase.songOpen)

/-- PITCH_CELLS (R108). -/
def State.pitchCells (args : List Byte) (s : State) : State × Status :=
  if !s.noSongOpen then (s, .busy)
  else
    match readPitchCells args with
    | none => (s, .badTable)
    | some cells =>
      if cellsInRange cells && cellsContiguous cells then
        ({ s with engine := { s.engine with table := some cells } }, .ok)
      else (s, .badTable)

end Sys2Proof.Machine
end

