-- ==== Sys2Proof/Machine/Mic.lean ====
section
/-! DEFINITION. The mic intake (R92 to R98) and the pitch analysis engine with its arbiter (R99 to R101).

An arrival does in one event all that it brings about: MIC cells, an expired request, a hop and the start of
an analysis. MIC_CELL_COMPLETE, REQUEST_EXPIRY and HOP_COMPLETE name arrivals that bring one of these about
(log entry 6). -/

namespace Sys2Proof.Machine

/-! ## Channels -/

/-- The channel of a room's microphone (Conventions, Numbering). -/
def channelOf (r : RoomId) (m : Mic) : Channel := ⟨2 * r.val + m.index, by cases m <;> simp [Mic.index] <;> omega⟩

/-- The room of a channel. -/
def roomOf (c : Channel) : RoomId := ⟨c.val / 2, by omega⟩

/-- The microphone of a channel. -/
def micOf (c : Channel) : Mic := if c.val % 2 = 0 then .mic1 else .mic2

/-- The intake's record of a channel. -/
def State.channel (s : State) (c : Channel) : MicChannel := ((s.room (roomOf c)).mics.get (micOf c))

/-- The part with one channel's record changed. -/
def State.modChannel (s : State) (c : Channel) (f : MicChannel → MicChannel) : State :=
  s.modRoom (roomOf c) fun rm => { rm with mics := rm.mics.set (micOf c) (f (rm.mics.get (micOf c))) }

/-! ## Forwarding (R93) -/

/-- The next sample completes a MIC cell. -/
def MicChannel.completesCell (c : MicChannel) : Bool := Config.micCellSamples ≤ c.staging.length + 1

/-- The staging after its MIC cell has been completed; `displaced` says that an untaken older cell is lost. -/
def MicChannel.nextCell (displaced : Bool) (c : MicChannel) : MicChannel :=
  { c with
    staging := [], sequence := (c.sequence + 1) % 65536
    lost := if displaced then satInc c.lost else c.lost }

/-- A completed MIC cell enters its channel's waiting slot (R93). -/
def Link.putMic (c : Channel) (x : MicCell) (l : Link) : Link :=
  { l with micWaiting := l.micWaiting.set c (some x) }

/-- A sample appended to its channel's staging, as received; the 64th completes a MIC cell (R93). -/
def State.stage (c : Channel) (x : BitVec 16) (s : State) : State :=
  let y := s.channel c
  if y.completesCell then
    let t := s.modChannel c (MicChannel.nextCell (s.link.micWaiting.get c).isSome)
    { t with link := t.link.putMic c ⟨y.sequence, y.staging ++ [x]⟩ }
  else s.modChannel c fun y => { y with staging := y.staging ++ [x] }

/-! ## Rings, hops and requests (R94 to R98) -/

/-- A clear ring (R94). -/
def MicChannel.clearRing (c : MicChannel) : MicChannel :=
  { c with ring := emptyRing, writePos := 0, hopCount := 0, request := none }

/-- The pre-shift of a sample: divided by 16, rounded toward minus infinity (R95). -/
def preShift (x : BitVec 16) : Int := x.toInt / 16

/-- The next sample written brings the waiting request to its greatest age (R97). -/
def MicChannel.expires (c : MicChannel) : Bool := c.request.any (Config.requestLife ≤ ·.age + 1)

/-- The waiting request a sample later: removed and counted as dropped at its greatest age, or a sample older
(R95, R97). -/
def MicChannel.ageRequest (c : MicChannel) : MicChannel :=
  if c.expires then { c with request := none, dropped := satInc c.dropped }
  else { c with request := c.request.map fun q => { q with age := q.age + 1 } }

/-- The next sample written completes a hop (R96). -/
def MicChannel.hops (c : MicChannel) : Bool := Config.hopSamples ≤ c.hopCount + 1

/-- The hop counter a sample later; a completed hop raises a request with a stamp (R95, R96). -/
def MicChannel.countHop (stamp : Nat) (c : MicChannel) : MicChannel :=
  if c.hops then { c with hopCount := 0, request := some ⟨stamp, 0⟩ }
  else { c with hopCount := c.hopCount + 1 }

/-- A sample written into the ring, the request's age raised and then the hop counter (R95). -/
def MicChannel.write (stamp : Nat) (x : BitVec 16) (c : MicChannel) : MicChannel :=
  (({ c with
    ring := c.ring.set c.writePos (preShift x)
    writePos := (c.writePos + 1) % Config.ringCells }).ageRequest).countHop stamp

/-- The window of a request of an age: it begins 400 cells behind the write position of the request's hop,
and so 400 and the age behind the write position now, and runs forward for 400 samples (R96, R100). -/
def MicChannel.window (age : Nat) (c : MicChannel) : List Int :=
  let first := (c.writePos + 2 * Config.ringCells - Config.windowSamples - age) % Config.ringCells
  (c.ring.drop first ++ c.ring.take first).take Config.windowSamples

/-! ## The arbiter (R100) -/

/-- The channels in the order the arbiter takes them, the one last served considered last (R100). -/
def arbiterOrder (last : Channel) : List Channel := ([1, 2, 3, 4, 5, 6, 7, 0] : List Channel).map (last + ·)

/-- The channel the arbiter chooses, if any waits. -/
def State.nextWaiting (s : State) : Option Channel :=
  (arbiterOrder s.engine.lastServed).find? fun c => (s.channel c).request.isSome

/-- The analysis of a channel's request starts: the window is copied and the request leaves its slot
(R100). -/
def State.startOn (c : Channel) (s : State) : State :=
  match (s.channel c).request with
  | none => s
  | some q =>
    let y := (s.channel c).window q.age
    let s := s.modChannel c fun x => { x with request := none }
    { s with engine := { s.engine with current := some ⟨c, q.stamp, false, y⟩, lastServed := c } }

/-- An IDLE engine starts the analysis of the next waiting channel (R100). -/
def State.arbitrate (s : State) : State :=
  match s.engine.current, s.nextWaiting with
  | none, some c => s.startOn c
  | _, _ => s

/-! ## Arrivals -/

/-- A channel's samples go into its ring: the room is PLAYING, the channel has a part, and the pitch cell
table is LOADED (R95). -/
def State.writes (r : RoomId) (m : Mic) (s : State) : Bool :=
  (s.room r).phase = .playing && (s.room r).settings.micParts.get m ≠ .none && s.engine.table.isSome

/-- A sample of a room's microphone written into its channel's ring, when it goes there (R95). -/
def State.write (r : RoomId) (m : Mic) (x : BitVec 16) (s : State) : State :=
  if s.writes r m then s.modChannel (channelOf r m) (MicChannel.write (s.room r).timeline.clock x) else s

/-- An arrival completes a hop of a room's microphone (R96). -/
def State.hopsOn (r : RoomId) (m : Mic) (s : State) : Bool := s.writes r m && ((s.room r).mics.get m).hops

/-- An arrival expires the waiting request of a room's microphone (R97). -/
def State.expiresOn (r : RoomId) (m : Mic) (s : State) : Bool :=
  s.writes r m && ((s.room r).mics.get m).expires

/-- SAMPLE_PAIR (R92): both samples staged and, where they go there, written; when the arrival completes a
hop, the arbiter takes the requests into account once both channels have theirs (R96, R100). -/
def State.samplePair (r : RoomId) (x1 x2 : BitVec 16) (s : State) : State :=
  if (s.room r).phase = .dark then s
  else
    let t := (((s.stage (channelOf r .mic1) x1).stage (channelOf r .mic2) x2).write r .mic1 x1).write r .mic2 x2
    if s.hopsOn r .mic1 || s.hopsOn r .mic2 then t.arbitrate else t

/-- A room leaves PLAYING: its channels' rings become clear, a running analysis of one of them void, and
their voiced runs are reset (R98, R99, R112). -/
def State.clearRings (r : RoomId) (s : State) : State :=
  let s := s.modRoom r fun rm =>
    { rm with
      mics := rm.mics.both MicChannel.clearRing
      singers := rm.singers.both fun x => { x with runStart := none } }
  { s with engine := { s.engine with
      current := s.engine.current.map fun a => if roomOf a.channel = r then { a with void := true } else a } }

/-! ## Completion of an analysis (R101) -/

/-- The result of an analysis and what the engine keeps of it, under the settings of the channel's room
(R101 to R110). -/
def State.computed (a : Analysis) (s : State) : Residue × AnalysisResult :=
  let y := computeWindow (s.room (roomOf a.channel)).settings a.window
  (y, ⟨a.channel, a.stamp, y.period.map (lookupNote s.engine.table)⟩)

/-- ANALYSIS_COMPLETE: the engine becomes IDLE, an analysis that is not void gives its result, and the
arbiter chooses again (R101). DESIGN CHOICE (log entry 26): R110's 'until the next analysis' is taken as until
the next completion that is not void; the start of an analysis and a void completion leave the energy, the
differences and Lq of the one before. -/
def State.analysisComplete (s : State) : State :=
  match s.engine.current with
  | none => s
  | some a =>
    let idle := { s with engine := { s.engine with current := none } }
    if a.void then idle.arbitrate
    else
      let y := s.computed a
      ({ idle with engine := { idle.engine with residue := some y.1 } }.hand (.analysis y.2)).arbitrate

end Sys2Proof.Machine
end

