-- ==== Sys2Proof/Machine/Video.lean ====
section
/-! DEFINITION. The frame buffer manager (R79 to R90): the taking of VIDEO cells, frame completion, and
the rotation at an output frame start. -/

namespace Sys2Proof.Machine

/-- The first of a room's buffers in a role. -/
def FrameManager.withRole (v : FrameManager) (x : Role) : Option (Fin 3) :=
  ([0, 1, 2] : List (Fin 3)).find? fun b => v.roles.get b = x

/-- A buffer's role, changed. -/
def FrameManager.setRole (v : FrameManager) (b : Fin 3) (x : Role) : FrameManager :=
  { v with roles := v.roles.set b x }

/-- The picture the compositor draws from: that of the FRONT buffer (R79). -/
def FrameManager.front (v : FrameManager) : List Host.Cell :=
  match v.withRole .front with
  | some b => v.pictures.get b
  | none => []

/-- The flag of a segment index (R81). -/
def FillRecord.has (f : FillRecord) (index : Nat) : Bool := f.bitmap.getLsbD index

/-- The flag of a segment index set and counted, unless it was set already (R83). -/
def FillRecord.mark (index : Nat) (f : FillRecord) : FillRecord :=
  if f.has index then f
  else { f with bitmap := f.bitmap ||| BitVec.twoPow Config.segments index, count := f.count + 1 }

/-- A record just opened (R81). -/
def FillRecord.fresh (sequence : Nat) : FillRecord := ⟨sequence, 0, 0⟩

/-- A segment written into the FILLING buffer and noted in the record (R83). -/
def FrameManager.writeSegment (g : Segment) (v : FrameManager) : FrameManager :=
  match v.withRole .filling, v.record with
  | some b, some f =>
    { v with
      pictures := v.pictures.set b
        (memWrite blackByte (v.pictures.get b) (Config.segmentBytes * g.index) g.bytes)
      record := some (f.mark g.index) }
  | _, _ => v

/-- A cell discarded and counted (R82). -/
def FrameManager.discard (v : FrameManager) : FrameManager := { v with discarded := satInc v.discarded }

/-- A new filling frame opened in the lowest FREE buffer by the segment that begins it (R84). -/
def FrameManager.openFrame (g : Segment) (v : FrameManager) : FrameManager :=
  match v.withRole .free with
  | some b => ({ v.setRole b .filling with record := some (.fresh g.sequence) }).writeSegment g
  | none => v

/-- The frame being gathered abandoned for a newer one (R85). -/
def FrameManager.abandon (g : Segment) (v : FrameManager) : FrameManager :=
  ({ v with abandoned := satInc v.abandoned, record := some (.fresh g.sequence) }).writeSegment g

/-- The forward distance from one sequence to another, modulo 65536 (Conventions, Arithmetic). -/
def forward (reference sequence : Nat) : Nat := (sequence + (65536 - reference % 65536)) % 65536

/-- A well-formed segment taken by its sequence (R82, third step). -/
def FrameManager.takeSegment (g : Segment) (v : FrameManager) : FrameManager :=
  match v.record with
  | some f =>
    let d := forward f.sequence g.sequence
    if d = 0 then v.writeSegment g else if d < 32768 then v.abandon g else v.discard
  | none =>
    match v.lastCompleted with
    | none => v.openFrame g
    | some last =>
      let d := forward last g.sequence
      if d = 0 then v.discard else if d < 32768 then v.openFrame g else v.discard

/-- Every flag of the open record is set: the frame is due to complete (R86). -/
def FrameManager.completionDue (v : FrameManager) : Bool := v.record.any (Config.segments ≤ ·.count)

/-- The READY frame dropped, if there is one (R86). -/
def FrameManager.dropReady (v : FrameManager) : FrameManager :=
  match v.withRole .ready with
  | some b => { v.setRole b .free with dropped := satInc v.dropped }
  | none => v

/-- The frame being gathered becomes READY (R86). -/
def FrameManager.complete (v : FrameManager) : FrameManager :=
  let v := v.dropReady
  match v.withRole .filling, v.record with
  | some b, some f =>
    { v.setRole b .ready with
      lastCompleted := some f.sequence, record := none, completed := satInc v.completed }
  | _, _ => v

/-- The rotation at an output frame start (R87). -/
def FrameManager.rotate (v : FrameManager) : FrameManager :=
  match v.withRole .ready, v.withRole .front with
  | some b, some old => (v.setRole old .free).setRole b .front
  | _, _ => v

/-- The video-stale timer at a completed frame (R15): started again, or in RESULT its kept time made
full. -/
def Room.restartStale (rm : Room) : Room :=
  match rm.phase with
  | .dark => rm
  | .result => { rm with staleTimer := .suspended Config.stalePeriod }
  | .attract | .cueing | .playing | .paused => { rm with staleTimer := .running Config.stalePeriod }

/-- The frame due to complete completes, and the room controller is told (R86). -/
def Room.completeFrame (rm : Room) : Room :=
  if rm.video.completionDue then ({ rm with video := rm.video.complete }).restartStale else rm

/-- A VIDEO cell of a room that is not DARK judged and written (R82 to R85). -/
def Room.gather (payload : List Byte) (rm : Room) : Room :=
  match readSegment payload with
  | none => { rm with video := rm.video.discard }
  | some g => { rm with video := rm.video.takeSegment g }

/-- A VIDEO cell taken by its room: discarded in DARK, and otherwise gathered, the frame completing with the
cell that fills it (R82, R83). -/
def Room.takeVideo (payload : List Byte) (rm : Room) : Room :=
  if rm.phase = .dark then rm else (rm.gather payload).completeFrame

/-- A VIDEO cell completes the room's frame (R86). -/
def Room.completedBy (payload : List Byte) (rm : Room) : Bool :=
  rm.phase ≠ .dark && (rm.gather payload).video.completionDue

end Sys2Proof.Machine
end

