-- ==== Sys2Proof/Machine/Raster.lean ====
section
/-! DEFINITION. The raster compositor (R61 to R78): the output frame start with its rotation, band table
commit and snapshot, and every pixel of the frame drawn from a snapshot. A pixel is a function of the
snapshot, so the picture on a display port is read from the state. -/

namespace Sys2Proof.Machine

/-! ## The commands BAND_TABLE and PALETTE -/

/-- BAND_TABLE (R66). -/
def State.bandTable (r : RoomId) (args : List Byte) (s : State) : State × Status :=
  match readBands args with
  | none => (s, .badRecord)
  | some bs =>
    let cs := bs.map Band.clamped
    (s.modRoom r fun rm => { rm with compositor := { rm.compositor with slot := some cs } },
      if cs = bs then .ok else .okClamped)

/-- PALETTE (R68). -/
def State.palette (r : RoomId) (args : List Byte) (s : State) : State × Status :=
  match readPalette args with
  | none => (s, .badRecord)
  | some p => (s.modRoom r fun rm => { rm with compositor := { rm.compositor with palette := p } }, .ok)

/-! ## Output frame start (R62, R63) -/

/-- One side of the live banner: the mic part, and the live score (R63, R76). -/
def Room.liveView (rm : Room) (m : Mic) : ScoreView := ⟨rm.settings.micParts.get m, (rm.singers.get m).live⟩

/-- One side of the final banner, from the result record (R63, R76). -/
def Room.finalView (rm : Room) (m : Mic) : ScoreView :=
  match rm.result with
  | none => ⟨.none, none⟩
  | some x =>
    let e := x.singers.get m
    ⟨e.part, if e.notScored then none else some e.final⟩

/-- The snapshot of a room (R63). -/
def Room.snapshot (g : GlyphStore) (rm : Room) : Snapshot :=
  { phase := rm.phase, clock := rm.timeline.clock
    upper := occupant 0 rm.lyrics.lines, lower := occupant 1 rm.lyrics.lines
    glyphs := g, palette := rm.compositor.palette
    live := ⟨rm.liveView .mic1, rm.liveView .mic2⟩, final := ⟨rm.finalView .mic1, rm.finalView .mic2⟩
    songs := (rm.queue.entries.take 4).map (·.song)
    bands := rm.compositor.active, digitBase := rm.settings.digitBase, picture := rm.video.front }

/-- The pending band table, if any, becomes active (R62, R66). -/
def Compositor.commit (c : Compositor) : Compositor :=
  match c.slot with
  | some bs => { c with active := bs, slot := none }
  | none => c

/-- An output frame start of a room (R62, R87): a DARK room's frame is black. -/
def Room.frameStart (g : GlyphStore) (rm : Room) : Room :=
  let rm := { rm with
    video := rm.video.rotate
    compositor := { rm.compositor.commit with rate := rm.settings.displayMode } }
  { rm with compositor := { rm.compositor with
      display := if rm.phase = .dark then .black else .frame (rm.snapshot g) } }

/-! ## Video pixels (R61, R69, R70) -/

/-- A component darkened by a dim level, toward 128 for a colour difference (R69). -/
def dimLuma (d : Nat) (y : Byte) : Byte := byteOf (y.toNat * (8 - d) / 8)
def dimChroma (d : Nat) (c : Byte) : Byte :=
  BitVec.ofInt 8 (128 + (((c.toNat : Int) - 128) * ((8 - d : Nat) : Int)).tdiv 8)

/-- A colour darkened by a dim level. -/
def Colour.dimmed (d : Nat) (c : Colour) : Colour := ⟨dimLuma d c.y, dimChroma d c.cb, dimChroma d c.cr⟩

/-- Where the bytes of a column pair stand in a picture (R80): segment by segment, four bytes a pair. -/
def pairOffset (x y : Nat) : Nat := Config.segmentBytes * (4 * y + x / 320) + 4 * (x % 320 / 2)

/-- The pixel of a picture at column x of line y: the luma of its column, the chroma of its pair (R61). -/
def picturePixel (p : List Host.Cell) (x y : Nat) : Colour :=
  ⟨memRead blackByte p (pairOffset x y + x % 2), memRead blackByte p (pairOffset x y + 2),
    memRead blackByte p (pairOffset x y + 3)⟩

/-- The video pixel of a frame under a dim level (R70). -/
def Snapshot.videoPixel (s : Snapshot) (dim x y : Nat) : Colour := (picturePixel s.picture x y).dimmed dim

/-! ## Text layout (R72, R73, R77, R78) -/

/-- An element of a row of text: a glyph by its code, or the decimal point (R77). -/
inductive Element where
  | glyph (code : Nat)
  | point
  deriving DecidableEq, Repr

/-- An element's width: an ABSENT code is a blank of 16 columns (R72), the point a cell of 8 (R77). -/
def Element.width (g : GlyphStore) : Element → Nat
  | .glyph code => ((g.entry code).map (·.width)).getD Config.blankWidth
  | .point => 8

/-- A row of text: its elements, each with the gap that follows it. -/
abbrev TextRow := List (Element × Nat)

/-- Elements with the same gap after each of them. -/
def spaced (gap : Nat) (es : List Element) : TextRow := es.map fun e => (e, gap)

/-- The width of a row: the elements and the gaps between them, the last element's gap left out. -/
def rowWidth (g : GlyphStore) : TextRow → Nat
  | [] => 0
  | [(e, _)] => e.width g
  | (e, gap) :: es => e.width g + gap + rowWidth g es

/-- The element whose columns hold a column, when the row begins at `first`, with its place in the row and
the column within it. -/
def elementAt (g : GlyphStore) : Nat → Nat → TextRow → Nat → Option (Nat × Element × Nat)
  | _, _, [], _ => none
  | k, first, (e, gap) :: es, x =>
    if x < first then none
    else if x < first + e.width g then some (k, e, x - first)
    else elementAt g (k + 1) (first + e.width g + gap) es x

/-- The first column of a row of text in a band, by alignment and margin (R72). -/
def alignedStart (a : Alignment) (margin width : Nat) : Nat :=
  let room := 1280 - 2 * margin
  if room < width then margin
  else
    match a with
    | .left => margin
    | .center => margin + (room - width) / 2
    | .right => 1280 - margin - width

/-- The pixel code of an element at a row and column of its own: 3 for the coloured square of the point
(R40, R77). -/
def Element.pixel (g : GlyphStore) (e : Element) (i j : Nat) : Byte :=
  match e with
  | .glyph code =>
    match g.entry code with
    | some x => memRead clearCell g.cells (x.offset + i * x.width + j)
    | none => 0
  | .point => if 32 ≤ i ∧ i ≤ 37 ∧ 1 ≤ j ∧ j ≤ 6 then 3 else 0

/-- The glyph row drawn on a line of a band, by the band's height as drawn (R73). -/
def glyphRow (top height y : Nat) : Option Nat :=
  let first := if Config.glyphRows ≤ height then top + (height - Config.glyphRows) / 2 else top
  if first ≤ y ∧ y < first + Config.glyphRows ∧ y < top + height then some (y - first) else none

/-! ## Bands (R67) -/

/-- A band as it is drawn: its effective kind and dim, its alignment and margin, its top line and its
height as cut at line 719. -/
structure DrawnBand where
  kind : BandKind
  dim : Nat
  alignment : Alignment
  margin : Nat
  top : Nat
  height : Nat
  deriving DecidableEq, Repr

/-- A band's state mask includes a room state; a PAUSED room counts as PLAYING (R67). -/
def StateMask.includes (m : StateMask) : Phase → Bool
  | .attract => m.attract
  | .cueing => m.cueing
  | .playing => m.playing
  | .paused => m.playing
  | .result => m.result
  | .dark => false

/-- The band as VIDEO of dim 0 or as its own kind and dim (R67). -/
def Band.effective (b : Band) (p : Phase) : BandKind × Nat :=
  if !b.mask.includes p then (.video, 0)
  else if p = .result ∧ (b.kind = .lyricUpper ∨ b.kind = .lyricLower) then (.video, 0)
  else (b.kind, b.dim)

/-- The band that holds a line, when the table is laid from `top` down (R67). -/
def bandAt (p : Phase) (y : Nat) : Nat → List Band → Option DrawnBand
  | _, [] => none
  | top, b :: bs =>
    if y < top + b.height then
      some
        { kind := (b.effective p).1, dim := (b.effective p).2, alignment := b.alignment,
          margin := b.margin, top := top, height := min b.height (720 - top) }
    else bandAt p y (top + b.height) bs

/-! ## Lyric bands (R71 to R75) -/

/-- The glyphs of a line as a row of text (R72). -/
def Line.text (l : Line) : TextRow := spaced 2 (l.glyphs.map .glyph)

/-- The syllable that holds a glyph of the string (R75). -/
def Line.syllableOf (l : Line) (k : Nat) : Option Syllable :=
  l.syllables.find? fun y => y.first ≤ k && k < y.first + y.count

/-- The width sw of a syllable's span (R74). -/
def Line.spanWidth (g : GlyphStore) (l : Line) (y : Syllable) : Nat :=
  rowWidth g ((l.text.drop y.first).take y.count)

/-- The first column sx of a syllable's span, counted from the line's first column (R74). -/
def Line.spanStart (g : GlyphStore) (l : Line) (y : Syllable) : Nat :=
  ((l.text.take y.first).map fun e => e.1.width g + e.2).sum

/-- A syllable's wipe, in columns (R74). -/
def wipe (st : LineState) (clock sw : Nat) (y : Syllable) : Nat :=
  match st with
  | .loaded => 0
  | .shown => 0
  | .done => sw
  | .singing =>
    if y.duration = 0 then if y.onset ≤ clock then sw else 0
    else sw * min (clock - y.onset) y.duration / y.duration

/-- The palette's colours for a part (R68). -/
def Palette.of (p : Palette) : Part → PartColours
  | .a => p.a
  | .b => p.b
  | .both => p.both

/-- The column of a row that is drawn: within the row, and not clipped at the margin (R72). -/
def unclipped (margin x : Nat) : Bool := x < 1280 - margin

/-- A pixel of a lyric line at glyph row i and column x (R75). -/
def Snapshot.linePixel (s : Snapshot) (l : Line) (x0 i x : Nat) (under : Colour) : Colour :=
  match elementAt s.glyphs 0 x0 l.text x with
  | none => under
  | some (k, e, j) =>
    let code := e.pixel s.glyphs i j
    let colours := s.palette.of l.part
    if code = 0 then under
    else if code = 1 then colours.outline
    else
      match l.syllableOf k with
      | none => colours.unsung
      | some y =>
        let sw := l.spanWidth s.glyphs y
        if x < x0 + l.spanStart s.glyphs y + wipe l.state s.clock sw y then colours.sung
        else colours.unsung

/-- A pixel of a lyric band (R71 to R75). -/
def Snapshot.lyricPixel (s : Snapshot) (b : DrawnBand) (row : Option Line) (x y : Nat) : Colour :=
  let under := s.videoPixel b.dim x y
  match row, glyphRow b.top b.height y with
  | some l, some i =>
    let x0 := alignedStart b.alignment b.margin (rowWidth s.glyphs l.text)
    if unclipped b.margin x then s.linePixel l x0 i x under else under
  | _, _ => under

/-! ## Score and queue bands (R76 to R78) -/

/-- The decimal digits of a number below 1000, with no leading zeros (R77). -/
def decimalDigits (n : Nat) : List Nat :=
  if n < 10 then [n] else if n < 100 then [n / 10, n % 10] else [n / 100, n / 10 % 10, n % 10]

/-- The six decimal digits of a song number (R78). -/
def sixDigits (n : Nat) : List Nat :=
  [n / 100000 % 10, n / 10000 % 10, n / 1000 % 10, n / 100 % 10, n / 10 % 10, n % 10]

/-- The string of a score in tenths (R77). -/
def scoreText (base score : Nat) : TextRow :=
  spaced 2 ((decimalDigits (score / 10)).map (fun d => .glyph (base + d)) ++
    [.point, .glyph (base + score % 10)])

/-- The six digits of an entry, the last followed by the gap between entries (R78). -/
def songText (base song : Nat) : TextRow :=
  (spaced 2 (((sixDigits song).take 5).map fun d => .glyph (base + d))) ++
    [(.glyph (base + song % 10), 24)]

/-- A pixel of text drawn whole in the banner colour (R77, R78). -/
def Snapshot.bannerPixel (s : Snapshot) (t : TextRow) (x0 i x : Nat) (under : Colour) : Colour :=
  match elementAt s.glyphs 0 x0 t x with
  | none => under
  | some (_, e, j) => if e.pixel s.glyphs i j = 0 then under else s.palette.banner

/-- The score shown for a side of the band, if one is (R76). -/
def ScoreView.shown (v : ScoreView) : Option Nat := if v.part = .none then none else v.score

/-- The scores a room state shows (R76). -/
def Snapshot.scores (s : Snapshot) : Option (PerMic ScoreView) :=
  match s.phase with
  | .playing => some s.live
  | .paused => some s.live
  | .result => some s.final
  | .dark => none
  | .attract => none
  | .cueing => none

/-- A pixel of the score band (R76, R77): mic 1 at the left margin, mic 2 ending at the right one. -/
def Snapshot.scorePixel (s : Snapshot) (b : DrawnBand) (x y : Nat) : Colour :=
  let under := s.videoPixel b.dim x y
  match s.scores, glyphRow b.top b.height y with
  | some v, some i =>
    let withLeft :=
      match v.one.shown with
      | some n => s.bannerPixel (scoreText s.digitBase n) b.margin i x under
      | none => under
    match v.two.shown with
    | some n =>
      let t := scoreText s.digitBase n
      s.bannerPixel t (1280 - b.margin - rowWidth s.glyphs t) i x withLeft
    | none => withLeft
  | _, _ => under

/-- A pixel of the queue band (R78). -/
def Snapshot.queuePixel (s : Snapshot) (b : DrawnBand) (x y : Nat) : Colour :=
  let under := s.videoPixel b.dim x y
  match glyphRow b.top b.height y with
  | some i =>
    let t := s.songs.flatMap (songText s.digitBase)
    let x0 := alignedStart b.alignment b.margin (rowWidth s.glyphs t)
    if unclipped b.margin x then s.bannerPixel t x0 i x under else under
  | none => under

/-! ## The frame -/

/-- The colour of a pixel of the frame drawn from a snapshot, each pixel on its own (R61, R67). -/
def Snapshot.pixel (s : Snapshot) (x y : Nat) : Colour :=
  match bandAt s.phase y 0 s.bands with
  | none => s.videoPixel 0 x y
  | some b =>
    match b.kind with
    | .video => s.videoPixel b.dim x y
    | .lyricUpper => s.lyricPixel b s.upper x y
    | .lyricLower => s.lyricPixel b s.lower x y
    | .score => s.scorePixel b x y
    | .queue => s.queuePixel b x y
    | .blank => .black

/-- What a display port carries once a close or a reset has ended its frame after `lines` lines; a frame
already cut stays so (R64). -/
def Display.cutAfter (lines : Nat) : Display → Display
  | .black => .black
  | .frame s => .cut s lines
  | .cut s n => .cut s n

/-- A pixel of what a display port carries, before the pairing of chroma. -/
def Display.pixel (d : Display) (x y : Nat) : Colour :=
  match d with
  | .black => .black
  | .frame s => s.pixel x y
  | .cut s lines => if y < lines then s.pixel x y else .black

/-- The lines of a room's frame that were sent before a close or a reset ended it, a free value (R64, log
entry 16). -/
def State.linesSent (s : State) (r : RoomId) : Nat := min Config.frameLines (Config.linesDrawn s.cuts r)

/-- A room's display after a close or a reset. -/
def State.cutDisplay (s : State) (r : RoomId) : Display :=
  (s.room r).compositor.display.cutAfter (s.linesSent r)

/-- What a display port sends for column x of line y: the luma of the pixel, and the chroma of the pixel in
the even column of its pair (R61). -/
def Display.port (d : Display) (x y : Nat) : Colour :=
  ⟨(d.pixel x y).y, (d.pixel (x - x % 2) y).cb, (d.pixel (x - x % 2) y).cr⟩

end Sys2Proof.Machine
end

