-- ==== Sys2Proof/Machine/Flags.lean ====
section
/-! DEFINITION. The codes of status, state and flag values on the wire (11.1 to 11.3): one function for
each enumerated value the part sends, and the forms of values that are none. -/

namespace Sys2Proof.Machine

/-- The status codes (R178). -/
def Status.code : Status → Nat
  | .ok => 0
  | .okClamped => 1
  | .busy => 2
  | .badRoom => 3
  | .noSpace => 4
  | .order => 5
  | .locked => 6
  | .badRecord => 7
  | .badTable => 8
  | .stale => 9
  | .unknownKind => 10

/-- The room state codes. -/
def Phase.code : Phase → Nat
  | .dark => 0
  | .attract => 1
  | .cueing => 2
  | .playing => 3
  | .paused => 4
  | .result => 5

/-- The pause reason byte: 1 STALL, 2 STAFF, 3 both, 0 empty. -/
def PauseReasons.code (p : PauseReasons) : Nat := (if p.stall then 1 else 0) + if p.staff then 2 else 0

/-- The buffer role codes. -/
def Role.code : Role → Nat
  | .front => 0
  | .ready => 1
  | .filling => 2
  | .free => 3

/-- The entry state codes. -/
def EntryState.code : EntryState → Nat
  | .queued => 0
  | .offered => 1
  | .loading => 2
  | .playing => 3

/-- The mic part codes. -/
def MicPart.code : MicPart → Nat
  | .none => 0
  | .a => 1
  | .b => 2

/-- The outcome codes of a result record. -/
def SongOutcome.code : SongOutcome → Nat
  | .complete => 1
  | .aborted => 2

/-- The READY cause codes. -/
def ReadyCause.code : ReadyCause → Nat
  | .none => 0
  | .powerOn => 1
  | .resetLine => 2
  | .resetCommand => 3

/-- The notice kind codes, 1..13 in kind order (R178). -/
def NoticeKind.code (k : NoticeKind) : Nat := k.index + 1

/-- The news kind codes (11.3). -/
def NewsKind.code : NewsKind → Nat
  | .nextUp => 1
  | .nowPlaying => 2
  | .refusedByServer => 3
  | .cancelled => 4

/-- The refusal codes (11.3). -/
def RefusalCode.code : RefusalCode → Nat
  | .badSong => 1
  | .roomClosed => 2
  | .queueFull => 3
  | .duplicate => 4
  | .handsetLimit => 5
  | .noTicket => 6
  | .notOwner => 7

/-- A yes/no or on/off value as a byte. -/
def flagByte (b : Bool) : List Byte := be1 (if b then 1 else 0)

/-- A sequence preceded by its present byte; none is sent as 0 (11.1). For a line id that is none, the 0 is log
entry 27. -/
def presentSequence (n : Option Nat) : List Byte :=
  match n with
  | some n => be1 1 ++ be2 n
  | none => be1 0 ++ be2 0

/-- A value that may be none, sent as all ones of its field's width then (11.1). -/
def orOnes1 (n : Option Nat) : List Byte := be1 (n.getD 255)
def orOnes2 (n : Option Nat) : List Byte := be2 (n.getD 65535)
def orOnes4 (n : Option Nat) : List Byte := be4 (n.getD 4294967295)

/-- The room byte of the device (11.1). -/
def deviceByte : Byte := 15

end Sys2Proof.Machine
end

