-- ==== Sys2Proof/Machine/Uplink.lean ====
section
/-! DEFINITION. The uplink: the content of notices as they are sent (R173, 11.1), the choice of the next
cell (R169), the bytes of an upstream cell (R178), and `finish`, with which every event ends: a free uplink
that has been given a cell to send takes it. -/

namespace Sys2Proof.Machine

/-! ## Notice content (R173) -/

/-- The counters of a singer entry, in the order of 11.1. -/
def Singer.bytes (x : Singer) : List Byte :=
  be2 x.hit ++ be2 x.near ++ be2 x.miss ++ be2 x.silent ++ be2 x.graded ++ be2 x.good ++ be2 x.late
    ++ be2 x.missed ++ be2 x.judged

/-- A singer entry of a result record: 28 bytes (11.1). -/
def SingerEntry.bytes (e : SingerEntry) : List Byte :=
  be1 e.part.code ++ flagByte e.notScored ++ be2 e.pitch ++ be2 e.timing ++ be2 e.final
    ++ e.counts.bytes ++ be2 e.dropped

/-- A result record, or a cleared one, in 62 bytes (11.1). Of a cleared record 11.1 gives the ticket and the
outcome as 0; DESIGN CHOICE (log entry 25): the song number and the two singer entries are sent as 0 too. -/
def resultBytes : Option ResultRecord → List Byte
  | some x => be1 x.ticket ++ be4 x.song ++ be1 x.outcome.code ++ x.singers.one.bytes ++ x.singers.two.bytes
  | none => List.replicate 62 0

/-- The content of an OFFER notice (R156). -/
def offerBytes (head : Option Entry) : List Byte :=
  match head with
  | some e =>
    if e.state = .offered then
      be1 e.ticket ++ be4 e.song ++ flagByte e.duet ++ beInt (e.preset.getD (-128))
    else be1 0 ++ be4 0 ++ be1 0 ++ beInt (-128)
  | none => be1 0 ++ be4 0 ++ be1 0 ++ beInt (-128)

/-- The content of a SONG_STARTED notice (R7). -/
def songStartedBytes (rm : Room) : List Byte :=
  match rm.phase, rm.queue.head? with
  | .playing, some e => be1 e.ticket ++ be4 e.song ++ be4 rm.timeline.clock
  | .paused, some e => be1 e.ticket ++ be4 e.song ++ be4 rm.timeline.clock
  | _, _ => be1 0 ++ be4 0 ++ be4 0

/-- The content of a HANDSET_CHANGED notice (R145). -/
def handsetChangedBytes (ln : RequestLine) : List Byte :=
  match ln.changed with
  | some h => be1 h.address ++ flagByte (ln.records.get h).online
  | none => be1 0 ++ [Config.stateOfNoHandset]

/-- The content of a room's notice of a kind, as it stands when sent (R173). DESIGN CHOICE (log entry 27): the
line id of a LYRIC_SKIPPED with no kept id is sent as 0. -/
def Room.noticeContent (rm : Room) : NoticeKind → List Byte
  | .ready => []
  | .offer => offerBytes rm.queue.head?
  | .offerTimeout => be1 (rm.queue.lapsed.getD 0)
  | .cueTimeout =>
    match rm.result with
    | some x => be1 x.ticket ++ be4 x.song
    | none => be1 0 ++ be4 0
  | .songStarted => songStartedBytes rm
  | .paused => be1 rm.phase.code ++ be1 rm.reasons.code
  | .resumed => be1 rm.phase.code ++ be1 rm.reasons.code
  | .keyChanged => beInt rm.timeline.keyOffset
  | .result => resultBytes rm.result
  | .queueChanged => be1 rm.queue.entries.length
  | .handsetChanged => handsetChangedBytes rm.line
  | .lyricSkipped => presentSequence rm.lyrics.lastSkipped
  | .videoStale => presentSequence rm.video.lastCompleted

/-- The content of a pair's notice, as it stands when sent (R173); a device pair is READY. -/
def State.noticeContent (s : State) (p : NoticePair) : List Byte :=
  match p.room with
  | some r => (s.room r).noticeContent p.kind
  | none => be1 s.link.readyCause.code

/-! ## The choice of the next cell (R169) -/

/-- The channels in the order the uplink takes them, the one last sent considered last (R169). -/
def sendOrder (last : Channel) : List Channel := ([1, 2, 3, 4, 5, 6, 7, 0] : List Channel).map (last + ·)

/-- The channel whose waiting MIC cell goes next, if any waits. -/
def Link.nextMic (l : Link) : Option Channel :=
  (sendOrder l.lastSent).find? fun c => (l.micWaiting.get c).isSome

/-- The uplink is free and may choose: the link is UP, the reset line is not asserted, and the transmit
register is empty (R169). -/
def Link.mayChoose (l : Link) : Bool := l.up && !l.resetLine && l.transmit.isNone

/-- A MIC cell leaves its slot for the transmit register. -/
def Link.sendMic (c : Channel) (l : Link) : Link :=
  { l with
    transmit := (l.micWaiting.get c).map (.mic c)
    micWaiting := l.micWaiting.set c none
    lastSent := c }

/-- The link after the uplink's choice (R169): a MIC cell, otherwise the head result, otherwise the head
notice, its content made now. -/
def State.chosenLink (s : State) : Link :=
  match s.link.nextMic, s.link.results, s.link.notices with
  | some c, _, _ => s.link.sendMic c
  | none, x :: xs, _ => { s.link with transmit := some (.result x), results := xs }
  | none, [], p :: ps =>
    { s.link.leaveNotice ps with transmit := some (.notice p (s.noticeContent p)) }
  | none, [], [] => s.link

/-- A free uplink that has a cell to send begins to send it (R169). -/
def State.startUplink (s : State) : State :=
  if s.link.mayChoose then { s with link := s.chosenLink } else s

/-- The outcome of every event: the state it leaves, once a free uplink has taken what the event gave it to
send (R169). -/
def finish (s : State) : Host.Outcome State Fault Refusal := .next s.startUplink

/-! ## The bytes of an upstream cell (R178) -/

/-- The payload of an upstream cell. -/
def UpCell.payload : UpCell → List Byte
  | .mic c x =>
    be1 (c.val % 2 + 1) ++ be2 x.sequence
      ++ x.samples.flatMap fun y => [byteOf (y.toNat / 256), byteOf y.toNat]
  | .result x => be1 x.status.code ++ be1 x.code ++ x.picture
  | .notice p content => be1 p.kind.code ++ content

/-- The kind, room and tag bytes of an upstream cell's header. -/
def UpCell.head : UpCell → List Byte
  | .mic c _ => be1 9 ++ be1 (c.val / 2) ++ be1 0
  | .result x => be1 10 ++ [x.room] ++ [x.tag]
  | .notice p _ =>
    be1 11 ++ (match p.room with | some r => be1 r.val | none => [deviceByte]) ++ be1 0

/-- The bytes of an upstream cell, header first (R178). -/
def UpCell.bytes (c : UpCell) : List Byte := c.head ++ be2 c.payload.length ++ c.payload

end Sys2Proof.Machine
end

