-- ==== Sys2Proof/Machine/Device.lean ====
section
/-! DEFINITION. Device reset, the reset line and the link: POWER_ON, RESET_LINE_ASSERT, RESET_LINE_RELEASE,
LINK_DOWN, LINK_UP and UPLINK_FREE (R19 to R21, R164, R169, R175 to R177). -/

namespace Sys2Proof.Machine

/-! ## A cell in arrival (R164, R165) -/

/-- Credit is granted (R164). -/
def Link.credit (l : Link) : Bool := l.up && !l.resetLine && decide (l.results.length < Config.resultPlaces)

/-- A cell is in arrival: credit lets it arrive, and some of its bytes have arrived but not all (R164, R165). -/
def State.arriving (s : State) : Bool := s.link.credit && !s.onLink.isEmpty && (nextCell s.onLink).isNone

/-! ## Device reset (R19) -/

/-- What a device reset leaves of the bytes on the link: the intake holds no cell, so those of a cell in arrival
are gone (R19); whole cells, and bytes without credit, still wait on the server's side (R164, log entry 10). -/
def State.keptOnLink (s : State) : List Byte := if s.arriving then [] else s.onLink

/-- The starting state of R19, with the reset line at a level and the READY cause set; no notice is raised
yet. The state of the link stays as it is. -/
def State.startingState (line : Bool) (cause : ReadyCause) (s : State) : State :=
  { pending := s.pending, onLink := s.keptOnLink, link := Link.start s.link.up line cause,
    rooms := Vector.replicate 4 Room.start, glyphs := GlyphStore.empty, engine := Engine.start,
    handed := [], cuts := s.cuts }

/-- A device reset with its READY notice (R19). -/
def State.deviceReset (cause : ReadyCause) (s : State) : State := (s.startingState false cause).raiseReady

/-- A room in its starting state whose display is not yet black. -/
def Room.startShowing (display : Display) : Room :=
  { Room.start with compositor := { Compositor.start with display := display } }

/-- DEVICE_RESET: a device reset that ends the frames being drawn (R19, R64). The cells behind it get their
credit, and so arrive, after the reset (R164, R177). -/
def State.resetByCommand (s : State) : State :=
  { s.deviceReset .resetCommand with
    onLink := s.onLink
    rooms := #v[Room.startShowing (s.cutDisplay 0), Room.startShowing (s.cutDisplay 1),
      Room.startShowing (s.cutDisplay 2), Room.startShowing (s.cutDisplay 3)]
    cuts := s.cuts + 1 }

/-- Power-on; while the reset line is asserted the part stays in its reset state and raises nothing (R19,
R20, log entry 14). -/
def State.powerOn (s : State) : State :=
  if s.link.resetLine then s.startingState true .powerOn else s.deviceReset .powerOn

/-- Assertion of the reset line (R20). -/
def State.assertReset (s : State) : State := s.startingState true .resetLine

/-- The first output frame start of every compositor (R61). -/
def State.firstFrames (s : State) : State :=
  { s with rooms := s.rooms.map (Room.frameStart s.glyphs) }

/-- Release of the reset line (R20, R61); a line that is not asserted is not released. -/
def State.releaseReset (s : State) : State :=
  if s.link.resetLine then (s.deviceReset .resetLine).firstFrames else s

/-! ## Link (R21, R164, R175, R176) -/

/-- A cell discarded by the intake (R165). -/
def Link.discard (l : Link) : Link := { l with cellsDiscarded := satInc l.cellsDiscarded }

/-- The link goes down: a cell in arrival is cut off, discarded and counted (R165, R175). -/
def State.linkGoesDown (s : State) : State :=
  if s.arriving then { s with onLink := [], link := { s.link.discard with up := false } }
  else { s with link := { s.link with up := false } }

/-- A READY notice is already waiting (R21, R176). -/
def Link.readyWaiting (l : Link) : Bool :=
  decide (⟨none, .ready⟩ ∈ l.notices ∨ ⟨none, .ready⟩ ∈ l.pendingPairs) ||
    match l.transmit with
    | some (.notice p _) => p.kind = .ready
    | _ => false

/-- READY settled at link-up (R21). -/
def State.settleReady (s : State) : State :=
  if s.link.readyWaiting || s.link.resetLine then s
  else ({ s with link := { s.link with readyCause := .none } }).raiseReady

/-- The link comes up (R21, R176). -/
def State.linkUp (s : State) : State :=
  if s.link.up then s else ({ s with link := { s.link with up := true } }).settleReady

/-- The last byte of the cell in the transmit register leaves; over a link that is down, or with the reset
line asserted, nothing leaves (R169). -/
def Link.sent (l : Link) : Link := if l.up && !l.resetLine then { l with transmit := none } else l

/-! ## The events -/

/-- POWER_ON (R19). -/
def execPowerOn (s : State) : Host.Outcome State Fault Refusal := finish s.powerOn

/-- RESET_LINE_ASSERT (R20). -/
def execResetLineAssert (s : State) : Host.Outcome State Fault Refusal := finish s.assertReset

/-- RESET_LINE_RELEASE (R20). -/
def execResetLineRelease (s : State) : Host.Outcome State Fault Refusal := finish s.releaseReset

/-- LINK_DOWN (R175), behind the last bytes that arrive (log entry 11). -/
def execLinkDown (lastBytes : List Byte) (s : State) : Host.Outcome State Fault Refusal :=
  finish ({ s with onLink := s.onLink ++ lastBytes }).linkGoesDown

/-- LINK_UP (R176). -/
def execLinkUp (s : State) : Host.Outcome State Fault Refusal := finish s.linkUp

/-- UPLINK_FREE (R169). -/
def execUplinkFree (s : State) : Host.Outcome State Fault Refusal := finish { s with link := s.link.sent }

end Sys2Proof.Machine
end

