-- ==== Sys2Proof/Machine/RoomControl.lean ====
section
/-! DEFINITION. The room controller: opening, closing and resetting a room (R4 to R6), the song's start,
holds, end and abort (R7 to R14), the room's timers (R3, R15), the settings record (R17), and the taking of
clock changes and time marks (R8, R11, R28 to R31). -/

namespace Sys2Proof.Machine

/-! ## Shared steps -/

/-- The empty pause reason set. -/
def PauseReasons.empty : PauseReasons := ⟨false, false⟩

/-- A timer of a period in s, started (R3). -/
def startSeconds (n : Nat) : Timer := .running (1000 * n)

/-- A running video-stale timer suspended on entry to RESULT (R15). -/
def StaleTimer.suspend : StaleTimer → StaleTimer
  | .running n => .suspended n
  | .suspended n => .suspended n
  | .stopped => .stopped

/-- A suspended video-stale timer running on after RESULT (R15). -/
def StaleTimer.resume : StaleTimer → StaleTimer
  | .suspended n => .running n
  | .running n => .running n
  | .stopped => .stopped

/-- The head entry leaves the queue as the song ends (R162): CANCELLED news goes to its owner when `news`
says so, and the queue change is noted without its trigger. That the news stands before the NEXT_UP of a head then
offered is log entry 12. -/
def State.retireHead (r : RoomId) (news : Bool) (s : State) : State :=
  match (s.room r).queue.head? with
  | some e =>
    let s := s.removeEntry r e
    let s := if news then s.placeNews r e.owner .cancelled e.ticket else s
    s.noteQueueChange r
  | none => s

/-- The room's lyric lines and melody notes returned to their pools (R12, R13, R14). -/
def Room.clearSong (rm : Room) : Room := { rm with lyrics := rm.lyrics.clear, melody := Melody.start }

/-! ## Song end and abort (R11, R13) -/

/-- The room state, reasons and timers at a song end (R11, R15). -/
def Room.toResult (rm : Room) : Room :=
  { rm with
    phase := .result, reasons := .empty, markTimer := .stopped
    holdTimer := startSeconds rm.settings.resultHold, staleTimer := rm.staleTimer.suspend }

/-- The song of a PLAYING or PAUSED room ends (R11). -/
def State.endSong (r : RoomId) (s : State) : State :=
  let s := s.modRoom r fun rm => (rm.makeResult .complete).toResult
  ((s.clearRings r).retireHead r false).raise r .result

/-- The room state, reasons and timers at an abort (R13). -/
def Room.toAttract (rm : Room) : Room :=
  { rm with phase := .attract, reasons := .empty, markTimer := .stopped, cueTimer := .stopped }

/-- The open song of a room is aborted (R13): the head is removed with CANCELLED news to its owner when
`news` says so (R152, R153), and the entry to ATTRACT is then an offer trigger. -/
def State.abort (r : RoomId) (news : Bool) (s : State) : State :=
  let s := s.modRoom r fun rm => (rm.makeResult .aborted).toAttract
  let s := (s.retireHead r news).raise r .result
  ((s.modRoom r Room.clearSong).clearRings r).offerTrigger r

/-! ## Holds (R8 to R10) -/

/-- A PLAYING room is held (R8, R9). -/
def State.hold (r : RoomId) (why : PauseReasons) (s : State) : State :=
  let s := s.modRoom r fun rm => { rm with phase := .paused, reasons := why, markTimer := .stopped }
  (s.clearRings r).raise r .paused

/-- A held room returns to PLAYING (R10). -/
def State.release (r : RoomId) (s : State) : State :=
  (s.modRoom r fun rm =>
    { rm with
      phase := .playing, reasons := .empty
      markTimer := .running rm.settings.markTimeout }).raise r .resumed

/-- A reason removed from a PAUSED room's set: the room returns to PLAYING when the set is left empty
(R10). -/
def State.removeReason (r : RoomId) (left : PauseReasons) (s : State) : State :=
  if left = .empty then s.release r else s.modRoom r fun rm => { rm with reasons := left }

/-! ## Clock changes taken by the room controller and the score unit (R11, R28, R116) -/

/-- The end guard tested at a clock value (R11). -/
def State.testGuard (r : RoomId) (clock : Nat) (s : State) : State :=
  match (s.room r).phase, (s.room r).timeline.guard with
  | .playing, some g => if g ≤ clock then s.endSong r else s
  | .paused, some g => if g ≤ clock then s.endSong r else s
  | _, _ => s

/-- A clock change that a jump makes in a pause: its three readers take it at once (R28). DESIGN CHOICE (log
entry 8): R28 leaves their order open, and here the lines are evaluated first, the notes passed next, and the
end guard tested last, so that R117's song end before the pass does not occur at such a jump. -/
def State.readJump (r : RoomId) (s : State) : State :=
  let t := (s.room r).timeline.clock
  ((s.evaluate r).modRoom r (Room.passNotes t)).testGuard r t

/-- TIME_MARK applied in PLAYING: the mark timer is started again (R8), and a jump is handed on. -/
def State.markPlaying (r : RoomId) (p : Nat) (s : State) : State :=
  let jump := (s.room r).timeline.jumps p
  let s := s.modRoom r fun rm =>
    { rm with timeline := rm.timeline.mark p, markTimer := .running rm.settings.markTimeout }
  if jump then s.handClockChange r true else s

/-- STALL removed by a time mark, when the room is still PAUSED by it (R8). -/
def State.removeStall (r : RoomId) (s : State) : State :=
  if (s.room r).phase = .paused ∧ (s.room r).reasons.stall then
    s.removeReason r { (s.room r).reasons with stall := false }
  else s

/-- TIME_MARK applied in PAUSED (R8, R29 to R31): a jump is read at once, and STALL is removed after. -/
def State.markPaused (r : RoomId) (p : Nat) (s : State) : State :=
  let jump := (s.room r).timeline.jumps p
  let s := s.modRoom r fun rm => { rm with timeline := rm.timeline.mark p }
  (if jump then s.readJump r else s).removeStall r

/-- TIME_MARK (R29): ignored outside PLAYING and PAUSED. -/
def State.timeMark (r : RoomId) (p : Nat) (s : State) : State :=
  match (s.room r).phase with
  | .playing => s.markPlaying r p
  | .paused => s.markPaused r p
  | .dark => s
  | .attract => s
  | .cueing => s
  | .result => s

/-! ## Timer expiries (R3)

A timer expires when its time has run out; with time left, as after a restart, there is no expiry (log entries
4 and 5). -/

/-- Mark timer expiry (R8). -/
def State.markExpiry (r : RoomId) (s : State) : State :=
  match (s.room r).markTimer with
  | .stopped => s
  | .running (_ + 1) => s
  | .running 0 =>
    let s := s.modRoom r fun rm => { rm with markTimer := .stopped }
    if (s.room r).phase = .playing then s.hold r ⟨true, false⟩ else s

/-- Cue timer expiry (R14). -/
def State.cueExpiry (r : RoomId) (s : State) : State :=
  match (s.room r).cueTimer with
  | .stopped => s
  | .running (_ + 1) => s
  | .running 0 =>
    let s := s.modRoom r fun rm => { rm with cueTimer := .stopped }
    if (s.room r).phase = .cueing then
      let s := s.modRoom r fun rm => (rm.makeResult .aborted).toAttract
      let s := (s.retireHead r true).raise r .cueTimeout
      (s.modRoom r Room.clearSong).offerTrigger r
    else s

/-- Result-hold timer expiry (R12). -/
def State.holdExpiry (r : RoomId) (s : State) : State :=
  match (s.room r).holdTimer with
  | .stopped => s
  | .running (_ + 1) => s
  | .running 0 =>
    let s := s.modRoom r fun rm => { rm with holdTimer := .stopped }
    if (s.room r).phase = .result then
      (s.modRoom r fun rm =>
        { rm.clearSong with phase := .attract, staleTimer := rm.staleTimer.resume }).offerTrigger r
    else s

/-- Video-stale timer expiry (R15). -/
def State.staleExpiry (r : RoomId) (s : State) : State :=
  match (s.room r).staleTimer with
  | .running 0 => (s.modRoom r fun rm => { rm with staleTimer := .stopped }).raise r .videoStale
  | .running (_ + 1) => s
  | .stopped => s
  | .suspended _ => s

/-! ## Opening, closing and resetting a room (R4 to R6) -/

/-- ROOM_OPEN (R4). A VIDEO cell that reached the part before it found the room DARK (R89), so none waits past
it. -/
def State.roomOpen (r : RoomId) (s : State) : State × Status :=
  if (s.room r).phase = .dark then
    (((s.modRoom r fun rm =>
      { rm with phase := .attract, staleTimer := .running Config.stalePeriod }).dropHanded
        (HandOver.isVideoOf r)).offerTrigger r, .ok)
  else (s, .busy)

/-- A room's own state after a close that ends its frame as `display` gives (R5, R22, R57, R64, R81, R89, R93,
R94, R112, R113, R129, R155). -/
def Room.closed (display : Display) (rm : Room) : Room :=
  { rm with
    phase := .dark, reasons := .empty
    markTimer := .stopped, cueTimer := .stopped, holdTimer := .stopped, staleTimer := .stopped
    timeline := rm.timeline.clear rm.settings.defaultTempo
    lyrics := rm.lyrics.clear
    compositor := { rm.compositor with display := display }
    video := FrameManager.start
    mics := ⟨MicChannel.start, MicChannel.start⟩
    singers := ⟨Singer.start, Singer.start⟩
    melody := Melody.start
    result := none
    queue := { RequestQueue.start with counter := rm.queue.counter } }

/-- CANCELLED news for entries, in their order (R160). -/
def State.cancelNews (r : RoomId) (es : List Entry) (s : State) : State :=
  es.foldl (fun s e => s.placeNews r e.owner .cancelled e.ticket) s

/-- What a close takes back of what was handed on: the clock changes and the detents of the song that is over
(R38, log entry 7). -/
def HandOver.endsWith (r : RoomId) (h : HandOver) : Bool := h.isClockOf r || h.isDetentOf r

/-- ROOM_CLOSE (R5, R64, R160). -/
def State.closeRoom (r : RoomId) (s : State) : State :=
  let es := (s.room r).queue.entries
  let t := ((s.cancelNews r es).clearRings r).modRoom r (Room.closed (s.cutDisplay r))
  let t := ({ t with cuts := t.cuts + 1 }).dropHanded (HandOver.endsWith r)
  if es = [] then t else t.raise r .queueChanged

/-- A room's default configuration, its handset line in its reset state (R6, R133, R137, R145). -/
def Room.toDefaults (rm : Room) : Room :=
  { rm with
    settings := Settings.default
    timeline := { rm.timeline with tempo := Settings.default.defaultTempo }
    compositor := { rm.compositor with
      active := Band.defaultTable, slot := none, palette := Palette.black }
    mask := NoticeMask.all
    line := { RequestLine.start with changed := rm.line.changed, sent := rm.line.sent } }

/-- A message on its way to the queue manager whose answer is no longer awaited by a handset of a room that
`who` accepts (R140). -/
def HandOver.forget (r : RoomId) (who : HandsetId → Bool) : HandOver → HandOver
  | .request q => if q.room = r ∧ who q.sender then .request { q with live := false } else .request q
  | .cancel c => if c.room = r ∧ who c.sender then .cancel { c with live := false } else .cancel c
  | h => h

/-- The answers still awaited by handsets of a room are awaited no longer (R140). -/
def State.forgetAnswers (r : RoomId) (who : HandsetId → Bool) (s : State) : State :=
  { s with handed := s.handed.map (HandOver.forget r who) }

/-- ROOM_RESET (R6). -/
def State.resetRoom (r : RoomId) (s : State) : State :=
  ((s.closeRoom r).modRoom r Room.toDefaults).forgetAnswers r fun _ => true

/-! ## Commands of the song (R7 to R13) -/

/-- The room at SONG_START (R7). -/
def Room.startSong (position : Nat) (rm : Room) : Room :=
  { rm with
    phase := .playing
    timeline := { rm.timeline with clock := position }
    cueTimer := .stopped
    markTimer := .running rm.settings.markTimeout
    queue := rm.queue.setHead .playing }

/-- NOW_PLAYING news for the owner of a room's head (R7). -/
def State.nowPlaying (r : RoomId) (s : State) : State :=
  match (s.room r).queue.head? with
  | some e => s.placeNews r e.owner .nowPlaying e.ticket
  | none => s

/-- SONG_START (R7). The lines are evaluated in the command; the room controller and the score unit are
handed the clock change (R28, log entry 9). -/
def State.songStart (r : RoomId) (position : Nat) (s : State) : State × Status :=
  if (s.room r).phase = .cueing then
    let top := (s.room r).timeline.songLength.getD position
    let s := ((s.modRoom r (Room.startSong (min position top))).nowPlaying r).raise r .songStarted
    ((s.evaluate r).handClock r, if top < position then .okClamped else .ok)
  else (s, .busy)

/-- SONG_END (R11). -/
def State.songEnd (r : RoomId) (s : State) : State × Status :=
  match (s.room r).phase with
  | .playing | .paused => (s.endSong r, .ok)
  | .dark | .attract | .cueing | .result => (s, .busy)

/-- PAUSE (R9). -/
def State.pauseSong (r : RoomId) (s : State) : State × Status :=
  match (s.room r).phase with
  | .playing => (s.hold r ⟨false, true⟩, .ok)
  | .paused => (s.modRoom r fun rm => { rm with reasons := { rm.reasons with staff := true } }, .ok)
  | .dark | .attract | .cueing | .result => (s, .busy)

/-- RESUME (R10). -/
def State.resumeSong (r : RoomId) (s : State) : State × Status :=
  match (s.room r).phase with
  | .playing => (s, .ok)
  | .paused =>
    (if (s.room r).reasons.staff then s.removeReason r { (s.room r).reasons with staff := false } else s,
      .ok)
  | .dark | .attract | .cueing | .result => (s, .busy)

/-- SKIP (R13). -/
def State.skipSong (r : RoomId) (s : State) : State × Status :=
  if (s.room r).phase.songOpen then (s.abort r false, .ok) else (s, .busy)

/-- SET_TEMPO (R27). -/
def State.setTempo (r : RoomId) (tempo : Nat) (s : State) : State × Status :=
  if (s.room r).phase.songOpen then
    let t := clampNat 80 120 tempo
    (s.modRoom r fun rm => { rm with timeline := { rm.timeline with tempo := t } },
      if t = tempo then .ok else .okClamped)
  else (s, .busy)

/-! ## ROOM_SETTINGS (R17) -/

/-- The mic parts that are written: those the record holds, while a song is open (R17). -/
def Room.partsAllowed (rm : Room) (t : Settings) : PerMic MicPart :=
  if rm.phase.songOpen then rm.settings.micParts else t.micParts

/-- ROOM_SETTINGS (R17). -/
def State.roomSettings (r : RoomId) (args : List Byte) (s : State) : State × Status :=
  match readSettings args with
  | none => (s, .badRecord)
  | some t =>
    let w := { t.clamped with micParts := (s.room r).partsAllowed t }
    (s.modRoom r fun rm => { rm with settings := w }, if w = t then .ok else .okClamped)

/-- NOTICE_MASK (R172): the flag for OFFER stays enabled. -/
def State.noticeMask (r : RoomId) (args : List Byte) (s : State) : State × Status :=
  match readMask args with
  | none => (s, .badRecord)
  | some m =>
    (s.modRoom r fun rm => { rm with mask := { m with offer := true } },
      if m.offer then .ok else .okClamped)

end Sys2Proof.Machine
end

