-- ==== Sys2Proof/Machine/Queue.lean ====
section
/-! DEFINITION. The request queue manager: tickets and admission (R148 to R150), cancellation and staff
edits (R152 to R154), the offer exchange (R157, R158), and the opening and refusing of a song (R159 to
R161). -/

namespace Sys2Proof.Machine

/-- The queue entries in use in all rooms (R147). -/
def State.entriesUsed (s : State) : Nat := s.total (·.queue.entries.length)

/-- An entry that stands in the offer exchange or in a song: OFFERED, LOADING or PLAYING (R147). -/
def Entry.active (e : Entry) : Bool := e.state ≠ .queued

/-! ## Tickets and admission (R148 to R150) -/

/-- The ticket after a ticket, wrapping from 250 to 1 (R148). -/
def nextTicket (t : Nat) : Nat := t % Config.ticketMax + 1

/-- The first ticket from `t` on that no entry holds, trying at most `tries` of them (R148). -/
def RequestQueue.freeTicket (q : RequestQueue) : Nat → Nat → Nat
  | 0, t => t
  | tries + 1, t => if (q.find? t).isSome then q.freeTicket tries (nextTicket t) else t

/-- The ticket the room's next entry takes. -/
def RequestQueue.ticketToGive (q : RequestQueue) : Nat := q.freeTicket Config.ticketMax q.counter

/-- The number of entries up to and with the last that has its priority flag set (R150). -/
def throughPriority : List Entry → Nat
  | [] => 0
  | e :: es =>
    if 0 < throughPriority es then throughPriority es + 1 else if e.priority then 1 else 0

/-- How many entries stand ahead of an admitted entry (R150). -/
def RequestQueue.placeFor (q : RequestQueue) (priority : Bool) : Nat :=
  if priority then
    max (throughPriority q.entries) (if (q.head?.any Entry.active) then 1 else 0)
  else q.entries.length

/-- An entry put in behind `n` others. -/
def RequestQueue.insert (q : RequestQueue) (n : Nat) (e : Entry) : RequestQueue :=
  { q with entries := q.entries.take n ++ e :: q.entries.drop n }

/-- The waiting entries of a handset, QUEUED or OFFERED (R149). -/
def RequestQueue.waitingOf (q : RequestQueue) (h : HandsetId) : Nat :=
  (q.entries.filter fun e => e.owner = h && (e.state = .queued || e.state = .offered)).length

/-- The first admission check a request fails (R149). -/
def State.refusal (s : State) (x : HandedRequest) : Option RefusalCode :=
  let rm := s.room x.room
  if rm.phase = .dark then some .roomClosed
  else if Config.entriesPerRoom ≤ rm.queue.entries.length ∨ Config.entryPool ≤ s.entriesUsed then
    some .queueFull
  else if rm.queue.entries.any (fun e => e.song = x.song) && !rm.settings.allowRepeats then
    some .duplicate
  else if x.sender ≠ HandsetId.staff ∧ rm.settings.handsetLimit ≤ rm.queue.waitingOf x.sender then
    some .handsetLimit
  else none

/-- The entry a request makes (R147, R149). -/
def HandedRequest.entry (x : HandedRequest) (ticket : Nat) : Entry :=
  { ticket := ticket, song := x.song, owner := x.sender, duet := x.duet, priority := x.priority,
    preset := x.preset, state := .queued }

/-- A request admitted: an entry in its place, the ticket counter moved on, and a queue change (R148 to
R151). -/
def State.enrol (x : HandedRequest) (s : State) : State :=
  (s.modRoom x.room fun rm =>
    let t := rm.queue.ticketToGive
    { rm with queue :=
        { rm.queue.insert (rm.queue.placeFor x.priority) (x.entry t) with counter := nextTicket t } }).queueChange
    x.room

/-- REQUEST taken by the queue manager, with the answer it returns (R149). -/
def State.takeRequest (x : HandedRequest) (s : State) : State × Answer :=
  match s.refusal x with
  | some code => (s, .refused code)
  | none =>
    let q := (s.room x.room).queue
    (s.enrol x, .accepted q.ticketToGive (q.placeFor x.priority + 1))

/-! ## Cancellation and staff edits (R152 to R154) -/

/-- An entry cancelled according to its state, CANCELLED news going to its owner when `news` says so
(R152). DESIGN CHOICE (log entry 12): the removed entry's news is placed before the NEXT_UP of the head then
offered, so that an owner of both finds CANCELLED first in its outbox. -/
def State.cancelEntry (r : RoomId) (e : Entry) (news : Bool) (s : State) : State :=
  match e.state with
  | .loading => s.abort r news
  | .playing => s.abort r news
  | .queued | .offered =>
    let s := s.removeEntry r e
    (if news then s.placeNews r e.owner .cancelled e.ticket else s).queueChange r

/-- CANCEL taken by the queue manager, with the answer it returns (R152). -/
def State.takeCancel (x : HandedCancel) (s : State) : State × Answer :=
  match (s.room x.room).queue.find? x.ticket with
  | none => (s, .refused .noTicket)
  | some e =>
    if e.owner ≠ x.sender ∧ x.sender ≠ HandsetId.staff then (s, .refused .notOwner)
    else (s.cancelEntry x.room e (e.owner ≠ x.sender), .cancelDone x.ticket)

/-- QUEUE_REMOVE (R153). -/
def State.queueRemove (r : RoomId) (ticket : Nat) (s : State) : State × Status :=
  match (s.room r).queue.find? ticket with
  | none => (s, .stale)
  | some e => (s.cancelEntry r e true, .ok)

/-- The lowest position a move may reach (R154). -/
def RequestQueue.lowest (q : RequestQueue) : Nat := if q.head?.any Entry.active then 2 else 1

/-- An entry moved so that it stands at a position (R154). -/
def RequestQueue.moveTo (q : RequestQueue) (e : Entry) (position : Nat) : RequestQueue :=
  ({ q with entries := q.entries.filter (fun x => x.ticket ≠ e.ticket) }).insert (position - 1) e

/-- QUEUE_MOVE (R154). A move that leaves the entry where it stood is no queue change. -/
def State.queueMove (r : RoomId) (ticket target : Nat) (s : State) : State × Status :=
  let q := (s.room r).queue
  match q.find? ticket with
  | none => (s, .stale)
  | some e =>
    if e.active then (s, .locked)
    else
      let position := clampNat q.lowest q.entries.length target
      let status := if position = target then Status.ok else .okClamped
      if (q.moveTo e position).entries = q.entries then (s, status)
      else ((s.modRoom r fun rm => { rm with queue := q.moveTo e position }).queueChange r, status)

/-! ## Offers (R157, R158) -/

/-- The head's offer lapses (R157). -/
def RequestQueue.lapse (e : Entry) (q : RequestQueue) : RequestQueue :=
  { q.setHead .queued with offerTimer := .stopped, suspended := true, lapsed := some e.ticket }

/-- Offer timer expiry (R157). -/
def State.offerExpiry (r : RoomId) (s : State) : State :=
  match (s.room r).queue.offerTimer with
  | .stopped => s
  | .running (_ + 1) => s
  | .running 0 =>
    match (s.room r).queue.head? with
    | some e =>
      if e.state = .offered then
        (s.modRoom r fun rm => { rm with queue := rm.queue.lapse e }).raise r .offerTimeout
      else s.modRoom r fun rm => { rm with queue := { rm.queue with offerTimer := .stopped } }
    | none => s.modRoom r fun rm => { rm with queue := { rm.queue with offerTimer := .stopped } }

/-- OFFER_POLL (R158). -/
def State.offerPoll (r : RoomId) (s : State) : State × Status :=
  let s := s.modRoom r fun rm => { rm with queue := { rm.queue with suspended := false } }
  if (s.room r).phase = .attract ∧ ((s.room r).queue.head?.any (·.state = .offered)) then
    (s.raise r .offer, .ok)
  else (s.offerTrigger r, .ok)

/-! ## Opening and refusing a song (R159 to R161) -/

/-- The head may be opened by its ticket: OFFERED, or QUEUED with the lapsed ticket (R159). -/
def RequestQueue.opens (q : RequestQueue) (ticket : Nat) : Option Entry :=
  match q.head? with
  | some e =>
    if e.ticket = ticket ∧ (e.state = .offered ∨ (e.state = .queued ∧ q.lapsed = some ticket)) then some e
    else none
  | none => none

/-- The room at an accepted SONG_OPEN (R160, with R22, R26, R57, R94, R112, R113, R129). -/
def Room.openSong (e : Entry) (length tempo : Nat) (rm : Room) : Room :=
  { rm.clearSong with
    phase := .cueing
    queue := { rm.queue.setHead .loading with
      offerTimer := .stopped, suspended := false, lapsed := none }
    cueTimer := startSeconds rm.settings.cueTimeout
    singers := ⟨Singer.start, Singer.start⟩
    mics := rm.mics.both fun c => { c with dropped := 0 }
    result := none
    timeline := rm.timeline.openSong tempo length e.preset }

/-- The tempo of an opened song: the cell's, clamped, or with 0 the default tempo (R26, R159). -/
def Room.openTempo (rm : Room) (tempo : Nat) : Nat :=
  if tempo = 0 then rm.settings.defaultTempo else clampNat 80 120 tempo

/-- SONG_OPEN (R159, R160). -/
def State.songOpen (r : RoomId) (ticket length tempo : Nat) (s : State) : State × Status :=
  let rm := s.room r
  if rm.phase = .dark then (s, .busy)
  else if length = 0 then (s, .badRecord)
  else if rm.phase ≠ .attract then (s, .stale)
  else
    match rm.queue.opens ticket with
    | none => (s, .stale)
    | some e =>
      let l := min length Config.songLengthMax
      ((s.modRoom r (Room.openSong e l (rm.openTempo tempo))).dropHanded (HandOver.isClockOf r),
        if l = length ∧ (tempo = 0 ∨ clampNat 80 120 tempo = tempo) then .ok else .okClamped)

/-- SONG_REFUSE (R161). The reason code is not kept. DESIGN CHOICE (log entry 12): REFUSED_BY_SERVER is placed
before the NEXT_UP of the head then offered. -/
def State.songRefuse (r : RoomId) (ticket : Nat) (s : State) : State × Status :=
  match (s.room r).queue.head? with
  | some e =>
    if e.ticket = ticket ∧ (e.state = .queued ∨ e.state = .offered) then
      (((s.removeEntry r e).placeNews r e.owner .refusedByServer ticket).queueChange r, .ok)
    else (s, .stale)
  | none => (s, .stale)

end Sys2Proof.Machine
end

