-- ==== Sys2Proof/Machine/Handset.lean ====
section
/-! DEFINITION. The request line controller: poll slots and polls (R134, R135), the reply window and
misses (R136, R138), replies and the sequence bit (R139, R140), messages and their answers (R141 to R143),
and the return of the queue manager's answers (R140). -/

namespace Sys2Proof.Machine

/-! ## Records -/

/-- A handset's record on a room's line. -/
def State.handset (s : State) (r : RoomId) (h : HandsetId) : HandsetRecord := (s.room r).line.records.get h

/-- A room's line, changed. -/
def State.modLine (s : State) (r : RoomId) (f : RequestLine → RequestLine) : State :=
  s.modRoom r fun rm => { rm with line := f rm.line }

/-- A handset's record, changed. -/
def RequestLine.modRecord (h : HandsetId) (f : HandsetRecord → HandsetRecord) (ln : RequestLine) :
    RequestLine :=
  { ln with records := ln.records.set h (f (ln.records.get h)) }

/-- An answer stored with its message's bit, to be carried by the next poll (R140). -/
def HandsetRecord.store (a : Answer) (bit : Bool) (x : HandsetRecord) : HandsetRecord :=
  { x with stored := some ⟨a, bit⟩, answerPending := true }

/-! ## Misses (R138) -/

/-- A miss counted (R138). -/
def HandsetRecord.missed (x : HandsetRecord) : HandsetRecord := { x with misses := x.misses + 1 }

/-- The next miss takes an ONLINE handset OFFLINE (R138). -/
def HandsetRecord.lastChance (x : HandsetRecord) : Bool := x.online && Config.missLimit ≤ x.misses + 1

/-- A handset changed between ONLINE and OFFLINE is recorded and reported (R138, R139, R145). -/
def State.reportHandset (r : RoomId) (h : HandsetId) (s : State) : State :=
  (s.modLine r fun ln => { ln with changed := some h }).raise r .handsetChanged

/-- A handset goes OFFLINE: its record is cleared, answers on their way to it are no longer awaited, and
HANDSET_CHANGED is raised (R138, R140). -/
def State.takeOffline (r : RoomId) (h : HandsetId) (s : State) : State :=
  ((s.modLine r (RequestLine.modRecord h fun _ => HandsetRecord.offline)).forgetAnswers r
    (· = h)).reportHandset r h

/-! ## Poll slots (R134, R135) -/

/-- The addresses 1..15 in wrapping order after a cursor, the cursor itself last (R134); cursor 0 stands
for none. -/
def pollOrder (cursor : Nat) : List HandsetId :=
  (List.range 15).map fun i => ⟨(cursor + i) % 15, by omega⟩

/-- The first OFFLINE address after the discovery cursor (R134). -/
def RequestLine.nextProbe (ln : RequestLine) : Option HandsetId :=
  (pollOrder ln.discoveryCursor).find? fun h => !(ln.records.get h).online

/-- The first ONLINE address after the slot cursor (R134). -/
def RequestLine.nextTurn (ln : RequestLine) : Option HandsetId :=
  (pollOrder ln.slotCursor).find? fun h => (ln.records.get h).online

/-- The address a slot polls, and whether the poll is a discovery probe (R134). -/
def RequestLine.choose (ln : RequestLine) : Option (HandsetId × Bool) :=
  let probe := ln.nextProbe.map (·, true)
  let turn := ln.nextTurn.map (·, false)
  if ln.slotCount = 0 then probe.or turn else turn.or probe

/-- The bytes of an answer in a poll (11.3). -/
def Answer.bytes (bit : Bool) : Answer → List Byte
  | .accepted t p => be1 1 ++ flagByte bit ++ be1 t ++ be1 p
  | .cancelDone t => be1 2 ++ flagByte bit ++ be1 t
  | .status n len own =>
    be1 3 ++ flagByte bit ++ be1 (n.getD 0) ++ be1 len ++ be1 own.length
      ++ own.flatMap fun x => be1 x.1 ++ be1 x.2
  | .refused c => be1 4 ++ flagByte bit ++ be1 c.code

/-- The payload of a poll: the pending answer and the oldest outbox item, each after its present byte
(R135, 11.3). -/
def HandsetRecord.pollPayload (x : HandsetRecord) : List Byte :=
  (match x.answerPending, x.stored with
    | true, some a => be1 1 ++ a.answer.bytes a.bit
    | _, _ => be1 0) ++
  (match x.outbox.head? with
    | some n => be1 1 ++ be1 n.kind.code ++ be1 n.ticket
    | none => be1 0)

/-- A POLL message: address, kind 8, sequence 0, length, payload, check byte (R135, 11.3). -/
def pollMessage (h : HandsetId) (payload : List Byte) : List Byte :=
  let body := be1 h.address ++ be1 8 ++ be1 0 ++ be1 payload.length ++ payload
  body ++ [checkByte body]

/-- The poll of the chosen address: the cursor moved, the answer's pending flag cleared, and the slot open
(R134, R135). -/
def RequestLine.poll (h : HandsetId) (probe : Bool) (ln : RequestLine) : RequestLine :=
  let x := ln.records.get h
  { ln with
    slotTimer := Config.slotPeriod
    slotCount := (ln.slotCount + 1) % 16
    slotCursor := if probe then ln.slotCursor else h.address
    discoveryCursor := if probe then h.address else ln.discoveryCursor
    slot := some ⟨h, probe, x.outbox.head?, false⟩
    received := []
    records := ln.records.set h { x with answerPending := false }
    sent := (pollMessage h x.pollPayload).map txChar }

/-! ## The reply window (R136, R138) -/

/-- The slot record becomes idle (R136). -/
def RequestLine.idle (ln : RequestLine) : RequestLine := { ln with slot := none, received := [] }

/-- A window that gave no ungarbled reply: the counters and the miss by R136, and the slot idle. -/
def RequestLine.failWindow (o : Slot) (silent : Bool) (ln : RequestLine) : RequestLine :=
  let ln := ln.idle
  let online := (ln.records.get o.handset).online
  let ln :=
    if silent then { ln with silent := if online then satInc ln.silent else ln.silent }
    else { ln with garbled := satInc ln.garbled }
  if online then ln.modRecord o.handset HandsetRecord.missed else ln

/-- A window that gave no ungarbled reply is over, and with the third miss its handset is OFFLINE (R136,
R138). -/
def State.failWindow (r : RoomId) (o : Slot) (silent : Bool) (s : State) : State :=
  let t := s.modLine r (RequestLine.failWindow o silent)
  if (s.handset r o.handset).lastChance then t.takeOffline r o.handset else t

/-- The reply window closes with no complete reply: silent when no byte has arrived, garbled otherwise
(R136). -/
def State.closeWindow (r : RoomId) (s : State) : State :=
  match (s.room r).line.slot with
  | none => s
  | some o => s.failWindow r o (s.room r).line.received.isEmpty

/-- HANDSET_OFFLINE (R138): the window closes whose miss is the polled handset's third; there is no such event
otherwise (log entries 5 and 6). -/
def State.thirdMiss (r : RoomId) (h : HandsetId) (s : State) : State :=
  if (s.room r).line.slot.any (·.handset = h) && (s.handset r h).lastChance then s.closeWindow r else s

/-- The poll of a slot, once the slot timer has run out (R134, log entry 4): a window still open is closed
first (log entry 20). -/
def State.pollSlot (r : RoomId) (s : State) : State :=
  if (s.room r).line.slotTimer = 0 then
    let s := s.closeWindow r
    match (s.room r).line.choose with
    | some (h, probe) => s.modLine r (RequestLine.poll h probe)
    | none => s
  else s

/-! ## Replies (R139, R140) -/

/-- An ungarbled reply: misses 0, the handset ONLINE, and the news item that the poll carried confirmed
(R139). -/
def HandsetRecord.answered (o : Slot) (x : HandsetRecord) : HandsetRecord :=
  { x with
    misses := 0, online := true
    outbox := if o.news.isSome && !o.newsGone then x.outbox.tail else x.outbox }

/-- The handset that replied is confirmed, and found again when it was OFFLINE (R139). -/
def State.confirm (r : RoomId) (o : Slot) (s : State) : State :=
  let found := !(s.handset r o.handset).online
  let s := s.modLine r fun ln => ln.idle.modRecord o.handset (HandsetRecord.answered o)
  if found then s.reportHandset r o.handset else s

/-- The ticket and position of each entry a handset owns, `k` being the position of the first (R143). -/
def ownPairs (h : HandsetId) : Nat → List Entry → List (Nat × Nat)
  | _, [] => []
  | k, e :: es => if e.owner = h then (e.ticket, k) :: ownPairs h (k + 1) es else ownPairs h (k + 1) es

/-- The answer to a STATUS_ASK (R143). -/
def Room.statusAnswer (h : HandsetId) (rm : Room) : Answer :=
  .status (if rm.phase.songOpen then rm.queue.head?.map (·.ticket) else none) rm.queue.entries.length
    (ownPairs h 1 rm.queue.entries)

/-- The record when a new message is accepted whose answer is to come (R140). -/
def HandsetRecord.accept (bit : Bool) (x : HandsetRecord) : HandsetRecord :=
  { x with bit := some bit, stored := none, answerPending := false }

/-- A song number that names a song (R141). -/
def songOk (song : Nat) : Bool := 1 ≤ song && song ≤ 999999

/-- A new message acted on (R141 to R143): a REQUEST with a good song number and a CANCEL are handed to the
queue manager; the others are answered at once. -/
def State.actOn (r : RoomId) (h : HandsetId) (bit : Bool) (m : Message) (s : State) : State :=
  let s := s.forgetAnswers r (· = h)
  let s := s.modLine r (RequestLine.modRecord h (HandsetRecord.accept bit))
  match m with
  | .idle => s
  | .statusAsk =>
    let a := (s.room r).statusAnswer h
    s.modLine r (RequestLine.modRecord h (HandsetRecord.store a bit))
  | .cancel ticket => s.hand (.cancel ⟨r, h, bit, ticket, true⟩)
  | .request song duet preset priority =>
    if songOk song then
      s.hand (.request ⟨r, h, bit, song, duet, preset, priority && h = HandsetId.staff, true⟩)
    else s.modLine r (RequestLine.modRecord h (HandsetRecord.store (.refused .badSong) bit))

/-- A repeat of a message: a stored answer is carried again (R140). -/
def HandsetRecord.repeated (x : HandsetRecord) : HandsetRecord :=
  { x with answerPending := x.answerPending || x.stored.isSome }

/-- The message of an ungarbled reply dealt with by its kind and sequence bit (R140). -/
def State.dealWith (r : RoomId) (h : HandsetId) (bit : Bool) (m : Message) (s : State) : State :=
  if m = .idle then s
  else if (s.handset r h).bit = some bit then
    s.modLine r (RequestLine.modRecord h HandsetRecord.repeated)
  else s.actOn r h bit m

/-- A complete reply taken in the window of a slot (R136). -/
def State.takeReply (r : RoomId) (o : Slot) (cs : List RxChar) (s : State) : State :=
  match judgeReply o.handset cs with
  | none => s.failWindow r o false
  | some (bit, m) => (s.confirm r o).dealWith r o.handset bit m

/-- HANDSET_REPLY (R136): characters that arrive in an open window join those the assembler holds, and the
reply is taken when it is complete; outside a window they are discarded (R131). -/
def State.handsetReply (r : RoomId) (cs : List RxChar) (s : State) : State :=
  match (s.room r).line.slot with
  | none => s
  | some o =>
    let held := (s.room r).line.received ++ cs
    match completeReply held with
    | some reply => s.takeReply r o reply
    | none => s.modLine r fun ln => { ln with received := held }

/-! ## Answers of the queue manager (R140) -/

/-- An answer returned to a handset that still awaits it; otherwise it is discarded (R140). -/
def State.returnAnswer (r : RoomId) (h : HandsetId) (bit live : Bool) (a : Answer) (s : State) : State :=
  if live then s.modLine r (RequestLine.modRecord h (HandsetRecord.store a bit)) else s

/-- REQUEST: the oldest one of the room handed to the queue manager (R149). -/
def State.request (r : RoomId) (s : State) : State :=
  match takeFirst (fun h => match h with | .request x => if x.room = r then some x else none | _ => none)
      s.handed with
  | none => s
  | some (x, rest) =>
    let out := ({ s with handed := rest }).takeRequest x
    out.1.returnAnswer r x.sender x.bit x.live out.2

/-- CANCEL: the oldest one of the room handed to the queue manager (R152). -/
def State.cancel (r : RoomId) (s : State) : State :=
  match takeFirst (fun h => match h with | .cancel x => if x.room = r then some x else none | _ => none)
      s.handed with
  | none => s
  | some (x, rest) =>
    let out := ({ s with handed := rest }).takeCancel x
    out.1.returnAnswer r x.sender x.bit x.live out.2

end Sys2Proof.Machine
end

