-- ==== Sys2Proof/Machine/StatusPicture.lean ====
section
/-! DEFINITION. The picture of STATUS_QUERY (R174) and its bytes, in the order of the table in 10.5: item
by item, and an item kept for each room, channel, buffer or address given for each of them in turn (11.1,
log entry 13). -/

namespace Sys2Proof.Machine

/-- An item given for rooms 0..3 in turn. -/
def State.eachRoom (f : Room → List Byte) (s : State) : List Byte :=
  f (s.room 0) ++ f (s.room 1) ++ f (s.room 2) ++ f (s.room 3)

/-- An item given for channels 0..7 in turn. -/
def State.eachChannel (f : Room → Mic → List Byte) (s : State) : List Byte :=
  s.eachRoom fun rm => f rm .mic1 ++ f rm .mic2

/-- An item given for the handset addresses 1..15 of each line in turn. -/
def State.eachHandset (f : HandsetRecord → List Byte) (s : State) : List Byte :=
  s.eachRoom fun rm =>
    ([0, 1, 2, 3, 4, 5, 6, 7, 8, 9, 10, 11, 12, 13, 14] : List HandsetId).flatMap fun h =>
      f (rm.line.records.get h)

/-- The device's own items. -/
def State.deviceItems (s : State) : List Byte :=
  be1 s.link.readyCause.code ++ be2 s.link.cellsDiscarded ++ be2 s.link.creditStalls
    ++ be2 s.link.results.length ++ be2 s.link.notices.length ++ be2 s.link.pendingPairs.length

/-- The rooms' items. -/
def State.roomItems (s : State) : List Byte :=
  s.eachRoom (fun rm => be1 rm.phase.code) ++ s.eachRoom (fun rm => be1 rm.reasons.code)
    ++ s.eachRoom (fun rm => be4 rm.timeline.clock) ++ s.eachRoom (fun rm => be1 rm.timeline.tempo)
    ++ s.eachRoom (fun rm => beInt rm.timeline.keyOffset)

/-- The glyph items (R40). -/
def State.glyphItems (s : State) : List Byte := be4 s.glyphs.fill ++ be2 s.glyphs.table.length

/-- The lyric items (R46, R60). -/
def State.lyricItems (s : State) : List Byte :=
  s.eachRoom (fun rm => be2 rm.lyrics.lineCount) ++ s.eachRoom (fun rm => be2 rm.lyrics.syllableCount)
    ++ s.eachRoom (fun rm => orOnes4 (rm.lyrics.lastLoaded.map (·.start)))
    ++ be2 (Config.linePool - s.linesUsed) ++ be2 (Config.syllablePool - s.syllablesUsed)

/-- The sequence and received count of the filling frame, sent as one item (R91, 11.1, log entry 13). -/
def FrameManager.fillingItem (v : FrameManager) : List Byte :=
  presentSequence (v.record.map (·.sequence)) ++ be2 ((v.record.map (·.count)).getD 0)

/-- The video items (R91). DESIGN CHOICE (log entry 13): the filling frame counts as one item of a room, and
each of the four counters as an item of its own, given for rooms 0..3 before the next counter. -/
def State.videoItems (s : State) : List Byte :=
  s.eachRoom (fun rm =>
      be1 (rm.video.roles.get 0).code ++ be1 (rm.video.roles.get 1).code
        ++ be1 (rm.video.roles.get 2).code)
    ++ s.eachRoom (fun rm => presentSequence rm.video.lastCompleted)
    ++ s.eachRoom (fun rm => rm.video.fillingItem)
    ++ s.eachRoom (fun rm => be2 rm.video.completed) ++ s.eachRoom (fun rm => be2 rm.video.dropped)
    ++ s.eachRoom (fun rm => be2 rm.video.abandoned) ++ s.eachRoom (fun rm => be2 rm.video.discarded)

/-- The analysis items (R111). -/
def State.analysisItems (s : State) : List Byte :=
  flagByte s.engine.table.isSome ++ flagByte s.engine.current.isSome
    ++ orOnes1 (s.engine.current.map (·.channel.val))
    ++ s.eachChannel (fun rm m => be2 (rm.mics.get m).dropped)
    ++ s.eachChannel (fun rm m => be2 (rm.mics.get m).lost)

/-- The scoring items (R113, R130). -/
def State.scoringItems (s : State) : List Byte :=
  s.eachRoom (fun rm => be2 rm.melody.notes.length) ++ be2 (Config.notePool - s.notesUsed)
    ++ s.eachChannel (fun rm m => be2 (rm.singers.get m).graded)
    ++ s.eachChannel (fun rm m => orOnes2 (rm.singers.get m).live)

/-- The handset items (R133, R145). -/
def State.handsetItems (s : State) : List Byte :=
  s.eachRoom (fun rm => be2 rm.line.garbled) ++ s.eachRoom (fun rm => be2 rm.line.silent)
    ++ s.eachHandset (fun x => flagByte x.online) ++ s.eachHandset (fun x => be2 x.misses)
    ++ s.eachHandset (fun x => be2 x.outbox.length)

/-- The queue items (R147). -/
def State.queueItems (s : State) : List Byte :=
  s.eachRoom (fun rm => be2 rm.queue.entries.length)
    ++ s.eachRoom (fun rm => orOnes1 (rm.queue.head?.map (·.state.code)))
    ++ be2 (Config.entryPool - s.entriesUsed)

/-- The STATUS_QUERY picture of one moment (R174). -/
def State.statusPicture (s : State) : List Byte :=
  s.deviceItems ++ s.roomItems ++ s.glyphItems ++ s.lyricItems ++ s.videoItems ++ s.analysisItems
    ++ s.scoringItems ++ s.handsetItems ++ s.queueItems

end Sys2Proof.Machine
end

