-- ==== Sys2Proof/Machine/Control.lean ====
section
/-! DEFINITION. The link intake and the commands (R164 to R168, R174, R178, R179): the catalogue, the three
checks of R166, the result queue, CELL_INTAKE, and one event for each command of the catalogue. -/

namespace Sys2Proof.Machine

/-! ## The catalogue (R166, 11.2) -/

/-- The commands addressed to the device. -/
inductive DeviceCommand where
  | deviceReset
  | statusQuery
  | glyphLoad
  | glyphClear
  | pitchCells
  deriving DecidableEq, Repr

/-- The commands addressed to a room. -/
inductive RoomCommand where
  | roomOpen
  | roomClose
  | roomReset
  | roomSettings
  | noticeMask
  | bandTable
  | palette
  | lyricLine
  | noteEvents
  | songOpen
  | songRefuse
  | songStart
  | songEnd
  | pause
  | resume
  | skip
  | setTempo
  | offerPoll
  | queueRemove
  | queueMove
  deriving DecidableEq, Repr

/-- A command of the catalogue. -/
inductive Command where
  | device (c : DeviceCommand)
  | room (c : RoomCommand)
  deriving DecidableEq, Repr

/-- The command codes. -/
def DeviceCommand.code : DeviceCommand → Nat
  | .deviceReset => 1
  | .statusQuery => 2
  | .glyphLoad => 34
  | .glyphClear => 35
  | .pitchCells => 48

/-- The command codes. -/
def RoomCommand.code : RoomCommand → Nat
  | .roomOpen => 16
  | .roomClose => 17
  | .roomReset => 18
  | .roomSettings => 19
  | .noticeMask => 20
  | .bandTable => 32
  | .palette => 33
  | .lyricLine => 49
  | .noteEvents => 50
  | .songOpen => 64
  | .songRefuse => 65
  | .songStart => 66
  | .songEnd => 67
  | .pause => 68
  | .resume => 69
  | .skip => 70
  | .setTempo => 71
  | .offerPoll => 80
  | .queueRemove => 81
  | .queueMove => 82

/-- The code of a command. -/
def Command.code : Command → Nat
  | .device c => c.code
  | .room c => c.code

/-- Every command of the catalogue. -/
def Command.catalogue : List Command :=
  ([.deviceReset, .statusQuery, .glyphLoad, .glyphClear, .pitchCells] : List DeviceCommand).map .device
    ++ ([.roomOpen, .roomClose, .roomReset, .roomSettings, .noticeMask, .bandTable, .palette, .lyricLine,
          .noteEvents, .songOpen, .songRefuse, .songStart, .songEnd, .pause, .resume, .skip, .setTempo,
          .offerPoll, .queueRemove, .queueMove] : List RoomCommand).map .room

/-- The command a code names (R166, first check). -/
def Command.ofCode (code : Nat) : Option Command := Command.catalogue.find? (·.code = code)

/-- The number of bytes after the command code that the third check of R166 requires; none for the six
commands of varying length, whose owners check it. -/
def DeviceCommand.argBytes : DeviceCommand → Option Nat
  | .deviceReset => some 0
  | .statusQuery => some 0
  | .glyphLoad => none
  | .glyphClear => some 0
  | .pitchCells => none

/-- The number of bytes after the command code that the third check of R166 requires; none for the six
commands of varying length, whose owners check it. -/
def RoomCommand.argBytes : RoomCommand → Option Nat
  | .roomOpen => some 0
  | .roomClose => some 0
  | .roomReset => some 0
  | .roomSettings => some 27
  | .noticeMask => some 12
  | .bandTable => none
  | .palette => none
  | .lyricLine => none
  | .noteEvents => none
  | .songOpen => some 6
  | .songRefuse => some 2
  | .songStart => some 4
  | .songEnd => some 0
  | .pause => some 0
  | .resume => some 0
  | .skip => some 0
  | .setTempo => some 1
  | .offerPoll => some 0
  | .queueRemove => some 1
  | .queueMove => some 2

/-- A payload length that a command allows (R166, third check). -/
def lengthAllowed (fixed : Option Nat) (args : List Byte) : Bool := fixed.all (args.length = ·)

/-- The room a room byte names (R178). -/
def roomByte (b : Byte) : Option RoomId := if h : b.toNat < 4 then some ⟨b.toNat, h⟩ else none

/-! ## Results (R168) -/

/-- A result joins the queue; a credit stall is counted when it is the one that fills it (R168). -/
def Link.answer (x : Result) (l : Link) : Link :=
  { l with
    results := l.results ++ [x]
    creditStalls :=
      if l.results.length + 1 = Config.resultPlaces then satInc l.creditStalls else l.creditStalls }

/-- A result joins the queue. -/
def State.answer (x : Result) (s : State) : State := { s with link := s.link.answer x }

/-! ## The owners' meanings (R166) -/

/-- What the owner of a room command does, with its status. The operands are those of 11.2. -/
def RoomCommand.carry (c : RoomCommand) (r : RoomId) (args : List Byte) (s : State) : State × Status :=
  match c with
  | .roomOpen => s.roomOpen r
  | .roomClose => (s.closeRoom r, .ok)
  | .roomReset => (s.resetRoom r, .ok)
  | .roomSettings => s.roomSettings r args
  | .noticeMask => s.noticeMask r args
  | .bandTable => s.bandTable r args
  | .palette => s.palette r args
  | .lyricLine => s.lyricLine r args
  | .noteEvents => s.noteEvents r args
  | .songOpen => s.songOpen r (u8 args 0) (u32 args 1) (u8 args 5)
  | .songRefuse => s.songRefuse r (u8 args 0)
  | .songStart => s.songStart r (u32 args 0)
  | .songEnd => s.songEnd r
  | .pause => s.pauseSong r
  | .resume => s.resumeSong r
  | .skip => s.skipSong r
  | .setTempo => s.setTempo r (u8 args 0)
  | .offerPoll => s.offerPoll r
  | .queueRemove => s.queueRemove r (u8 args 0)
  | .queueMove => s.queueMove r (u8 args 0) (u8 args 1)

/-- What the owner of a device command does, its result joined; DEVICE_RESET gives none (R166), and the
picture of STATUS_QUERY is taken before its own result joins (R174, log entry 13). -/
def DeviceCommand.carry (c : DeviceCommand) (tag : Byte) (args : List Byte) (s : State) : State :=
  let reply (out : State × Status) := out.1.answer ⟨tag, deviceByte, out.2, c.code, []⟩
  match c with
  | .deviceReset => s.resetByCommand
  | .statusQuery => s.answer ⟨tag, deviceByte, .ok, c.code, s.statusPicture⟩
  | .glyphLoad => reply (s.glyphLoad args)
  | .glyphClear => reply s.glyphClear
  | .pitchCells => reply (s.pitchCells args)

/-- A command that its code names: the second and third checks, and then its owner (R166). -/
def State.takeCommand (c : Command) (room tag : Byte) (args : List Byte) (s : State) : State :=
  let refuse (st : Status) := s.answer ⟨tag, room, st, c.code, []⟩
  match c with
  | .device d =>
    if room ≠ deviceByte then refuse .badRoom
    else if !lengthAllowed d.argBytes args then refuse .badRecord
    else d.carry tag args s
  | .room k =>
    match roomByte room with
    | none => refuse .badRoom
    | some r =>
      if !lengthAllowed k.argBytes args then refuse .badRecord
      else
        let out := k.carry r args s
        out.1.answer ⟨tag, room, out.2, c.code, []⟩

/-! ## The intake (R164, R165) -/

/-- A cell or code that names nothing, answered UNKNOWN_KIND with command code 0 (R165, R166, R178). -/
def State.unknownKind (room tag : Byte) (s : State) : State := s.answer ⟨tag, room, .unknownKind, 0, []⟩

/-- A CONTROL cell (R166, first check). -/
def State.takeControl (room tag : Byte) (payload : List Byte) (s : State) : State :=
  match payload with
  | [] => s.unknownKind room tag
  | code :: args =>
    match Command.ofCode code.toNat with
    | none => s.unknownKind room tag
    | some c => s.takeCommand c room tag args

/-- A cell discarded by the intake and counted (R165). -/
def State.discardCell (s : State) : State := { s with link := s.link.discard }

/-- A VIDEO cell handed on, or discarded when its room byte names no room (R165). -/
def State.takeVideoCell (c : DownCell) (s : State) : State :=
  match roomByte c.room with
  | some r => s.hand (.video r c.payload)
  | none => s.discardCell

/-- A TIME_MARK cell handed on, or discarded for its room byte or its length (R165, R178). -/
def State.takeMarkCell (c : DownCell) (s : State) : State :=
  match roomByte c.room with
  | some r => if c.payload.length = 4 then s.hand (.mark r (u32 c.payload 0)) else s.discardCell
  | none => s.discardCell

/-- The intake takes a cell (R165). -/
def State.takeCell (c : DownCell) (s : State) : State :=
  if c.kind = 1 then s.takeVideoCell c
  else if c.kind = 2 then s.takeMarkCell c
  else if c.kind = 3 then s.takeControl c.room c.tag c.payload
  else s.unknownKind c.room c.tag

/-- The oldest cell on the link is taken, when credit is granted and all of it has arrived (R164, R178). -/
def State.takeFromLink (s : State) : State :=
  match nextCell s.onLink with
  | some (c, rest) => if s.link.credit then ({ s with onLink := rest }).takeCell c else s
  | none => s

/-- Bytes arrive on the link behind those that wait there, and the oldest cell is taken if it may be (R164,
log entry 10). -/
def State.arrive (bytes : List Byte) (s : State) : State := ({ s with onLink := s.onLink ++ bytes }).takeFromLink

/-- The CONTROL cell of a command. -/
def controlCell (c : Command) (room tag : Byte) (args : List Byte) : DownCell :=
  ⟨3, room, tag, byteOf c.code :: args⟩

/-- An arriving cell is taken at once: credit is granted, and nothing waits on the link before it (R164). -/
def State.takesCells (s : State) : Bool := s.link.credit && s.onLink.isEmpty

/-- A command arrives, in the CONTROL cell that carries it: it is taken at once, or its bytes wait on the link
(log entry 10). -/
def State.command (c : Command) (room tag : Byte) (args : List Byte) (s : State) : State :=
  if s.takesCells then s.takeCommand c room tag args else s.arrive (controlCell c room tag args).bytes

/-! ## The events -/

/-- CELL_INTAKE (R165). -/
def execCellIntake (bytes : List Byte) (s : State) : Host.Outcome State Fault Refusal := finish (s.arrive bytes)

/-- DEVICE_RESET (R19, R177). -/
def execDeviceReset (room tag : Byte) (args : List Byte) (s : State) : Host.Outcome State Fault Refusal :=
  finish (s.command (.device .deviceReset) room tag args)

/-- STATUS_QUERY (R174). -/
def execStatusQuery (room tag : Byte) (args : List Byte) (s : State) : Host.Outcome State Fault Refusal :=
  finish (s.command (.device .statusQuery) room tag args)

/-- ROOM_OPEN (R4). -/
def execRoomOpen (room tag : Byte) (args : List Byte) (s : State) : Host.Outcome State Fault Refusal :=
  finish (s.command (.room .roomOpen) room tag args)

/-- ROOM_CLOSE (R5). -/
def execRoomClose (room tag : Byte) (args : List Byte) (s : State) : Host.Outcome State Fault Refusal :=
  finish (s.command (.room .roomClose) room tag args)

/-- ROOM_RESET (R6). -/
def execRoomReset (room tag : Byte) (args : List Byte) (s : State) : Host.Outcome State Fault Refusal :=
  finish (s.command (.room .roomReset) room tag args)

/-- ROOM_SETTINGS (R17). -/
def execRoomSettings (room tag : Byte) (args : List Byte) (s : State) : Host.Outcome State Fault Refusal :=
  finish (s.command (.room .roomSettings) room tag args)

/-- NOTICE_MASK (R172). -/
def execNoticeMask (room tag : Byte) (args : List Byte) (s : State) : Host.Outcome State Fault Refusal :=
  finish (s.command (.room .noticeMask) room tag args)

/-- BAND_TABLE (R66). -/
def execBandTable (room tag : Byte) (args : List Byte) (s : State) : Host.Outcome State Fault Refusal :=
  finish (s.command (.room .bandTable) room tag args)

/-- PALETTE (R68). -/
def execPalette (room tag : Byte) (args : List Byte) (s : State) : Host.Outcome State Fault Refusal :=
  finish (s.command (.room .palette) room tag args)

/-- GLYPH_LOAD (R41, R42). -/
def execGlyphLoad (room tag : Byte) (args : List Byte) (s : State) : Host.Outcome State Fault Refusal :=
  finish (s.command (.device .glyphLoad) room tag args)

/-- GLYPH_CLEAR (R43). -/
def execGlyphClear (room tag : Byte) (args : List Byte) (s : State) : Host.Outcome State Fault Refusal :=
  finish (s.command (.device .glyphClear) room tag args)

/-- PITCH_CELLS (R108). -/
def execPitchCells (room tag : Byte) (args : List Byte) (s : State) : Host.Outcome State Fault Refusal :=
  finish (s.command (.device .pitchCells) room tag args)

/-- LYRIC_LINE (R48, R49). -/
def execLyricLine (room tag : Byte) (args : List Byte) (s : State) : Host.Outcome State Fault Refusal :=
  finish (s.command (.room .lyricLine) room tag args)

/-- NOTE_EVENTS (R114). -/
def execNoteEvents (room tag : Byte) (args : List Byte) (s : State) : Host.Outcome State Fault Refusal :=
  finish (s.command (.room .noteEvents) room tag args)

/-- SONG_OPEN (R159, R160). -/
def execSongOpen (room tag : Byte) (args : List Byte) (s : State) : Host.Outcome State Fault Refusal :=
  finish (s.command (.room .songOpen) room tag args)

/-- SONG_REFUSE (R161). -/
def execSongRefuse (room tag : Byte) (args : List Byte) (s : State) : Host.Outcome State Fault Refusal :=
  finish (s.command (.room .songRefuse) room tag args)

/-- SONG_START (R7). -/
def execSongStart (room tag : Byte) (args : List Byte) (s : State) : Host.Outcome State Fault Refusal :=
  finish (s.command (.room .songStart) room tag args)

/-- SONG_END (R11). -/
def execSongEnd (room tag : Byte) (args : List Byte) (s : State) : Host.Outcome State Fault Refusal :=
  finish (s.command (.room .songEnd) room tag args)

/-- PAUSE (R9). -/
def execPause (room tag : Byte) (args : List Byte) (s : State) : Host.Outcome State Fault Refusal :=
  finish (s.command (.room .pause) room tag args)

/-- RESUME (R10). -/
def execResume (room tag : Byte) (args : List Byte) (s : State) : Host.Outcome State Fault Refusal :=
  finish (s.command (.room .resume) room tag args)

/-- SKIP (R13). -/
def execSkip (room tag : Byte) (args : List Byte) (s : State) : Host.Outcome State Fault Refusal :=
  finish (s.command (.room .skip) room tag args)

/-- SET_TEMPO (R27). -/
def execSetTempo (room tag : Byte) (args : List Byte) (s : State) : Host.Outcome State Fault Refusal :=
  finish (s.command (.room .setTempo) room tag args)

/-- OFFER_POLL (R158). -/
def execOfferPoll (room tag : Byte) (args : List Byte) (s : State) : Host.Outcome State Fault Refusal :=
  finish (s.command (.room .offerPoll) room tag args)

/-- QUEUE_REMOVE (R153). -/
def execQueueRemove (room tag : Byte) (args : List Byte) (s : State) : Host.Outcome State Fault Refusal :=
  finish (s.command (.room .queueRemove) room tag args)

/-- QUEUE_MOVE (R154). -/
def execQueueMove (room tag : Byte) (args : List Byte) (s : State) : Host.Outcome State Fault Refusal :=
  finish (s.command (.room .queueMove) room tag args)

end Sys2Proof.Machine
end

