-- ==== Sys2Proof/Machine/Events.lean ====
section
/-! DEFINITION. The events of the rooms: what was handed on taken by its owner, the time base and the
timers, frames, microphones and analyses, and the handset lines. An event whose cause does not stand (a timer
that has not run out, nothing handed on, an arrival that completes nothing) has no effect (log entry 5). -/

namespace Sys2Proof.Machine

/-! ## What was handed on (R28, R101, R165) -/

/-- The VIDEO payload, the mark, the detent, and the clock changes handed on for a room. -/
def HandOver.videoOf (r : RoomId) : HandOver → Option (List Byte)
  | .video q p => if q = r then some p else none
  | _ => none

def HandOver.markOf (r : RoomId) : HandOver → Option Nat
  | .mark q p => if q = r then some p else none
  | _ => none

def HandOver.detentOf (r : RoomId) : HandOver → Option Bool
  | .detent q clockwise => if q = r then some clockwise else none
  | _ => none

def HandOver.guardOf (r : RoomId) : HandOver → Option Nat
  | .toGuard q t => if q = r then some t else none
  | _ => none

def HandOver.lyricsOf (r : RoomId) : HandOver → Option Bool
  | .toLyrics q jump => if q = r then some jump else none
  | _ => none

def HandOver.scoreOf (r : RoomId) : HandOver → Option Nat
  | .toScore q t => if q = r then some t else none
  | _ => none

/-- The analysis result handed on. -/
def HandOver.analysisOf : HandOver → Option AnalysisResult
  | .analysis x => some x
  | _ => none

/-- The oldest item handed on that `f` accepts is taken and acted on; without one there is no event. -/
def State.takeHanded {α : Type} (f : HandOver → Option α) (act : α → State → State) (s : State) : State :=
  match takeFirst f s.handed with
  | some (x, rest) => act x { s with handed := rest }
  | none => s

/-- A clock change taken by the lyric table unit: an evaluation in PLAYING, and in PAUSED for a jump (R52). -/
def State.evaluationTaken (r : RoomId) (jump : Bool) (s : State) : State :=
  if (s.room r).phase = .playing ∨ ((s.room r).phase = .paused ∧ jump) then s.evaluate r else s

/-- An analysis result taken: discarded unless its room is PLAYING (R118). -/
def State.resultTaken (x : AnalysisResult) (s : State) : State :=
  if (s.room (roomOf x.channel)).phase = .playing then
    s.modRoom (roomOf x.channel) (Room.takeResult (micOf x.channel) x)
  else s

/-- VIDEO (R82). -/
def execVideo (r : RoomId) (s : State) : Host.Outcome State Fault Refusal :=
  finish (s.takeHanded (HandOver.videoOf r) fun p s => s.modRoom r (Room.takeVideo p))

/-- TIME_MARK (R29). -/
def execTimeMark (r : RoomId) (s : State) : Host.Outcome State Fault Refusal :=
  finish (s.takeHanded (HandOver.markOf r) fun p s => s.timeMark r p)

/-- END_GUARD (R11, R28). -/
def execEndGuard (r : RoomId) (s : State) : Host.Outcome State Fault Refusal :=
  finish (s.takeHanded (HandOver.guardOf r) fun t s => s.testGuard r t)

/-- EVALUATION (R52). -/
def execEvaluation (r : RoomId) (s : State) : Host.Outcome State Fault Refusal :=
  finish (s.takeHanded (HandOver.lyricsOf r) fun jump s => s.evaluationTaken r jump)

/-- PASS (R116). -/
def execPass (r : RoomId) (s : State) : Host.Outcome State Fault Refusal :=
  finish (s.takeHanded (HandOver.scoreOf r) fun t s => s.modRoom r (Room.passNotes t))

/-- ANALYSIS_RESULT (R118). -/
def execAnalysisResult (s : State) : Host.Outcome State Fault Refusal :=
  finish (s.takeHanded HandOver.analysisOf fun x s => s.resultTaken x)

/-! ## The time base, the key knob and the timers (R3, R23, R36) -/

/-- An event that the reset line, while asserted, keeps from being taken (R20). -/
def State.unlessReset (s : State) (t : State) : State := if s.link.resetLine then s else t

/-- TIMELINE_TICK (R23, R34). -/
def execTimelineTick (r : RoomId) (a b : Bool) (s : State) : Host.Outcome State Fault Refusal :=
  finish (s.unlessReset (s.tick r a b))

/-- KEY_DETENT (R37). -/
def execKeyDetent (r : RoomId) (s : State) : Host.Outcome State Fault Refusal :=
  finish (s.takeHanded (HandOver.detentOf r) fun clockwise s => s.takeDetent r clockwise)

/-- MARK_TIMER_EXPIRY (R8). -/
def execMarkTimerExpiry (r : RoomId) (s : State) : Host.Outcome State Fault Refusal :=
  finish (s.markExpiry r)

/-- CUE_TIMER_EXPIRY (R14). -/
def execCueTimerExpiry (r : RoomId) (s : State) : Host.Outcome State Fault Refusal :=
  finish (s.cueExpiry r)

/-- RESULT_HOLD_EXPIRY (R12). -/
def execResultHoldExpiry (r : RoomId) (s : State) : Host.Outcome State Fault Refusal :=
  finish (s.holdExpiry r)

/-- VIDEO_STALE_EXPIRY (R15). -/
def execVideoStaleExpiry (r : RoomId) (s : State) : Host.Outcome State Fault Refusal :=
  finish (s.staleExpiry r)

/-- OFFER_TIMER_EXPIRY (R157). -/
def execOfferTimerExpiry (r : RoomId) (s : State) : Host.Outcome State Fault Refusal :=
  finish (s.offerExpiry r)

/-! ## Frames (R62, R86) -/

/-- The VIDEO cell that waits for a room is taken when it completes the filling frame (R86, log entry 6). -/
def State.frameCompletion (r : RoomId) (s : State) : State :=
  match takeFirst (HandOver.videoOf r) s.handed with
  | some (p, rest) =>
    if (s.room r).completedBy p then ({ s with handed := rest }).modRoom r (Room.takeVideo p) else s
  | none => s

/-- FRAME_COMPLETION (R86). -/
def execFrameCompletion (r : RoomId) (s : State) : Host.Outcome State Fault Refusal :=
  finish (s.frameCompletion r)

/-- OUTPUT_FRAME_START (R62). -/
def execOutputFrameStart (r : RoomId) (s : State) : Host.Outcome State Fault Refusal :=
  finish (s.unlessReset (s.modRoom r (Room.frameStart s.glyphs)))

/-! ## Microphones and analyses (R92 to R101) -/

/-- SAMPLE_PAIR (R92). -/
def execSamplePair (r : RoomId) (x1 x2 : BitVec 16) (s : State) : Host.Outcome State Fault Refusal :=
  finish (s.unlessReset (s.samplePair r x1 x2))

/-- A sample pair of a room is taken when it brings about what `due` says of the state before it (log entries
5 and 6). -/
def State.arrivalWhen (due : State → Bool) (r : RoomId) (x1 x2 : BitVec 16) (s : State) : State :=
  if due s then s.samplePair r x1 x2 else s

/-- MIC_CELL_COMPLETE (R93). -/
def execMicCellComplete (x : ChannelArrival) (s : State) : Host.Outcome State Fault Refusal :=
  finish (s.unlessReset
    (s.arrivalWhen (fun s => (s.channel x.channel).completesCell) (roomOf x.channel) x.sample1 x.sample2))

/-- HOP_COMPLETE (R96, R100). -/
def execHopComplete (x : RoomArrival) (s : State) : Host.Outcome State Fault Refusal :=
  finish (s.unlessReset
    (s.arrivalWhen (fun s => s.hopsOn x.room .mic1 || s.hopsOn x.room .mic2) x.room x.sample1 x.sample2))

/-- REQUEST_EXPIRY (R97). -/
def execRequestExpiry (x : ChannelArrival) (s : State) : Host.Outcome State Fault Refusal :=
  finish (s.unlessReset
    (s.arrivalWhen (State.expiresOn (roomOf x.channel) (micOf x.channel)) (roomOf x.channel) x.sample1
      x.sample2))

/-- ANALYSIS_COMPLETE (R101). -/
def execAnalysisComplete (s : State) : Host.Outcome State Fault Refusal := finish s.analysisComplete

/-! ## Handset lines and the request queue (R134 to R152) -/

/-- POLL_SLOT (R134). -/
def execPollSlot (r : RoomId) (s : State) : Host.Outcome State Fault Refusal :=
  finish (s.unlessReset (s.pollSlot r))

/-- REPLY_WINDOW_CLOSE (R136). -/
def execReplyWindowClose (r : RoomId) (s : State) : Host.Outcome State Fault Refusal :=
  finish (s.unlessReset (s.closeWindow r))

/-- HANDSET_REPLY (R136, R140). -/
def execHandsetReply (r : RoomId) (chars : List RxChar) (s : State) : Host.Outcome State Fault Refusal :=
  finish (s.unlessReset (s.handsetReply r chars))

/-- HANDSET_OFFLINE (R138). -/
def execHandsetOffline (r : RoomId) (h : HandsetId) (s : State) : Host.Outcome State Fault Refusal :=
  finish (s.unlessReset (s.thirdMiss r h))

/-- REQUEST (R149). -/
def execRequest (r : RoomId) (s : State) : Host.Outcome State Fault Refusal := finish (s.request r)

/-- CANCEL (R152). -/
def execCancel (r : RoomId) (s : State) : Host.Outcome State Fault Refusal := finish (s.cancel r)

end Sys2Proof.Machine
end

