-- ==== Sys2Proof/Machine/Dispatch.lean ====
section
/-! DEFINITION. The dispatch of a command to its meaning: one arm for each row of the opcode table. -/

namespace Sys2Proof.Machine

/-- A command's effect on everything but the queue of waiting commands. -/
def exec (i : Instr) (s : State) : Host.Outcome State Fault Refusal :=
  match i with
  | .powerOn => Sys2Proof.Machine.execPowerOn s
  | .resetLineAssert => Sys2Proof.Machine.execResetLineAssert s
  | .resetLineRelease => Sys2Proof.Machine.execResetLineRelease s
  | .linkDown lastBytes => Sys2Proof.Machine.execLinkDown lastBytes s
  | .linkUp => Sys2Proof.Machine.execLinkUp s
  | .cellIntake bytes => Sys2Proof.Machine.execCellIntake bytes s
  | .video room => Sys2Proof.Machine.execVideo room s
  | .timeMark room => Sys2Proof.Machine.execTimeMark room s
  | .deviceReset room tag args => Sys2Proof.Machine.execDeviceReset room tag args s
  | .statusQuery room tag args => Sys2Proof.Machine.execStatusQuery room tag args s
  | .roomOpen room tag args => Sys2Proof.Machine.execRoomOpen room tag args s
  | .roomClose room tag args => Sys2Proof.Machine.execRoomClose room tag args s
  | .roomReset room tag args => Sys2Proof.Machine.execRoomReset room tag args s
  | .roomSettings room tag args => Sys2Proof.Machine.execRoomSettings room tag args s
  | .noticeMask room tag args => Sys2Proof.Machine.execNoticeMask room tag args s
  | .bandTable room tag args => Sys2Proof.Machine.execBandTable room tag args s
  | .palette room tag args => Sys2Proof.Machine.execPalette room tag args s
  | .glyphLoad room tag args => Sys2Proof.Machine.execGlyphLoad room tag args s
  | .glyphClear room tag args => Sys2Proof.Machine.execGlyphClear room tag args s
  | .pitchCells room tag args => Sys2Proof.Machine.execPitchCells room tag args s
  | .lyricLine room tag args => Sys2Proof.Machine.execLyricLine room tag args s
  | .noteEvents room tag args => Sys2Proof.Machine.execNoteEvents room tag args s
  | .songOpen room tag args => Sys2Proof.Machine.execSongOpen room tag args s
  | .songRefuse room tag args => Sys2Proof.Machine.execSongRefuse room tag args s
  | .songStart room tag args => Sys2Proof.Machine.execSongStart room tag args s
  | .songEnd room tag args => Sys2Proof.Machine.execSongEnd room tag args s
  | .pause room tag args => Sys2Proof.Machine.execPause room tag args s
  | .resume room tag args => Sys2Proof.Machine.execResume room tag args s
  | .skip room tag args => Sys2Proof.Machine.execSkip room tag args s
  | .setTempo room tag args => Sys2Proof.Machine.execSetTempo room tag args s
  | .offerPoll room tag args => Sys2Proof.Machine.execOfferPoll room tag args s
  | .queueRemove room tag args => Sys2Proof.Machine.execQueueRemove room tag args s
  | .queueMove room tag args => Sys2Proof.Machine.execQueueMove room tag args s
  | .timelineTick room a b => Sys2Proof.Machine.execTimelineTick room a b s
  | .keyDetent room => Sys2Proof.Machine.execKeyDetent room s
  | .endGuard room => Sys2Proof.Machine.execEndGuard room s
  | .evaluation room => Sys2Proof.Machine.execEvaluation room s
  | .pass room => Sys2Proof.Machine.execPass room s
  | .markTimerExpiry room => Sys2Proof.Machine.execMarkTimerExpiry room s
  | .cueTimerExpiry room => Sys2Proof.Machine.execCueTimerExpiry room s
  | .resultHoldExpiry room => Sys2Proof.Machine.execResultHoldExpiry room s
  | .videoStaleExpiry room => Sys2Proof.Machine.execVideoStaleExpiry room s
  | .offerTimerExpiry room => Sys2Proof.Machine.execOfferTimerExpiry room s
  | .frameCompletion room => Sys2Proof.Machine.execFrameCompletion room s
  | .outputFrameStart room => Sys2Proof.Machine.execOutputFrameStart room s
  | .samplePair room sample1 sample2 => Sys2Proof.Machine.execSamplePair room sample1 sample2 s
  | .micCellComplete arrival => Sys2Proof.Machine.execMicCellComplete arrival s
  | .hopComplete arrival => Sys2Proof.Machine.execHopComplete arrival s
  | .requestExpiry arrival => Sys2Proof.Machine.execRequestExpiry arrival s
  | .analysisComplete => Sys2Proof.Machine.execAnalysisComplete s
  | .analysisResult => Sys2Proof.Machine.execAnalysisResult s
  | .pollSlot room => Sys2Proof.Machine.execPollSlot room s
  | .replyWindowClose room => Sys2Proof.Machine.execReplyWindowClose room s
  | .handsetReply room chars => Sys2Proof.Machine.execHandsetReply room chars s
  | .handsetOffline room handset => Sys2Proof.Machine.execHandsetOffline room handset s
  | .request room => Sys2Proof.Machine.execRequest room s
  | .cancel room => Sys2Proof.Machine.execCancel room s
  | .uplinkFree => Sys2Proof.Machine.execUplinkFree s

end Sys2Proof.Machine
end

