-- ==== Sys2Proof/Safety.lean ====
section
/-! DEFINITION. What the manual says of the whole part at all times, as predicates of a state: the terms in
which the invariants are stated. -/

namespace Sys2Proof.Machine

/-! ## Rooms (R1 to R5) -/

/-- The pause reason set is never empty while the room is PAUSED and empty in every other state (R2). -/
abbrev Room.ReasonsAgree (rm : Room) : Prop := rm.phase = .paused ↔ rm.reasons ≠ .empty

/-- The video-stale timer runs in no room that is DARK or in RESULT, and is suspended only in RESULT (R15). -/
def StaleTimer.allowedIn (p : Phase) : StaleTimer → Bool
  | .stopped => true
  | .running _ => p ≠ .dark && p ≠ .result
  | .suspended _ => p = .result

/-- The mark, cue and result-hold timers run only in their room states, and the video-stale timer as R15
allows (R3, R15). -/
abbrev Room.TimersAgree (rm : Room) : Prop :=
  (rm.markTimer ≠ .stopped → rm.phase = .playing) ∧ (rm.cueTimer ≠ .stopped → rm.phase = .cueing) ∧
    (rm.holdTimer ≠ .stopped → rm.phase = .result) ∧
    rm.staleTimer.allowedIn rm.phase

/-- The head entry of a queue is in a state. -/
def RequestQueue.headIs (q : RequestQueue) (st : EntryState) : Bool := q.head?.any (·.state = st)

/-- Only the head of a queue is OFFERED, LOADING or PLAYING, and the tickets are all different and within
1..250 (R147, R148). -/
abbrev RequestQueue.Ordered (q : RequestQueue) : Prop :=
  (∀ e ∈ q.entries.tail, e.state = .queued) ∧ (q.entries.map (·.ticket)).Nodup ∧
    (∀ e ∈ q.entries, 1 ≤ e.ticket ∧ e.ticket ≤ Config.ticketMax) ∧
    1 ≤ q.counter ∧ q.counter ≤ Config.ticketMax

/-- The room state and the state of the head entry agree, and a head is OFFERED only in ATTRACT, the offer
timer running exactly then (R1, R155, R156). -/
abbrev Room.HeadAgrees (rm : Room) : Prop :=
  (rm.phase = .cueing ↔ rm.queue.headIs .loading) ∧
    (rm.phase = .playing ∨ rm.phase = .paused ↔ rm.queue.headIs .playing) ∧
    (rm.queue.headIs .offered → rm.phase = .attract) ∧
    (rm.queue.offerTimer ≠ .stopped ↔ rm.queue.headIs .offered)

/-- What a room keeps no more of than one room may: lines, syllables, notes and queue entries (R46, R113,
R147). -/
abbrev Room.WithinLimits (rm : Room) : Prop :=
  rm.lyrics.lineCount ≤ Config.linesPerRoom ∧ rm.lyrics.syllableCount ≤ Config.syllablesPerRoom ∧
    rm.melody.notes.length ≤ Config.notesPerRoom ∧ rm.queue.entries.length ≤ Config.entriesPerRoom

/-- A room in DARK holds no queue entries, lines or notes (R5). -/
abbrev Room.DarkIsEmpty (rm : Room) : Prop :=
  rm.phase = .dark → rm.queue.entries = [] ∧ rm.lyrics.lines = [] ∧ rm.melody.notes = []

/-! ## Song timeline (R22, R28) -/

/-- The end guard of a song length, or 0 without one: the clock stands no further. -/
def Timeline.limit (t : Timeline) : Nat := t.guard.getD 0

/-- The ranges of the timeline's items, and the clock held at the end guard (R22, R28, R36). -/
abbrev Timeline.InRange (t : Timeline) : Prop :=
  80 ≤ t.tempo ∧ t.tempo ≤ 120 ∧ t.accumulator ≤ 99 ∧ t.catchUp ≤ 40 ∧ t.hold ≤ Config.songTimeMax ∧
    (t.catchUp = 0 ∨ t.hold = 0) ∧ t.songLength.all (fun l => 1 ≤ l && l ≤ Config.songLengthMax) ∧
    -6 ≤ t.keyOffset ∧ t.keyOffset ≤ 6 ∧ -3 ≤ t.detents ∧ t.detents ≤ 3 ∧ t.clock ≤ t.limit ∧ t.keyStamp ≤ t.clock

/-- The settings record lies within its ranges (R16). -/
abbrev Settings.InRange (t : Settings) : Prop := t.clamped = t

/-- Every preset of a queue lies within its range (R141, R147). -/
abbrev RequestQueue.PresetsInRange (q : RequestQueue) : Prop :=
  ∀ e ∈ q.entries, e.preset.all (fun p => -6 ≤ p && p ≤ 6)

/-- The timeline, the settings and the presets in range, a song length held while a song is open, and the clock at 0 in CUEING (R1, R16,
R22, R147). -/
abbrev Room.ValuesInRange (rm : Room) : Prop :=
  rm.timeline.InRange ∧ rm.settings.InRange ∧ rm.queue.PresetsInRange ∧
    (rm.phase.songOpen → rm.timeline.songLength.isSome) ∧ (rm.phase = .cueing → rm.timeline.clock = 0)

/-! ## Lyrics (R47, R51) -/

/-- A row has at most one line in SHOWN, SINGING or DONE (R51). -/
abbrev Lyrics.RowsAgree (y : Lyrics) : Prop :=
  ∀ row : Fin 2, (y.lines.filter fun l => l.row = row && l.onRow).length ≤ 1

/-- The line ids of a list are all different, and its starts nondecreasing (R47). -/
abbrev Lyrics.InOrder (y : Lyrics) : Prop :=
  (y.lines.map (·.id)).Nodup ∧ y.lines.Pairwise fun k l => k.start ≤ l.start

/-! ## Background video (R79, R81) -/

/-- How many of a room's buffers are in a role. -/
def FrameManager.inRole (v : FrameManager) (x : Role) : Nat := v.roles.toList.count x

/-- Exactly one buffer is FRONT, at most one READY and at most one FILLING, the record being open exactly
when one is FILLING and its count short of a whole frame (R79, R81). -/
abbrev FrameManager.RolesAgree (v : FrameManager) : Prop :=
  v.inRole .front = 1 ∧ v.inRole .ready ≤ 1 ∧ (v.inRole .filling = if v.record.isSome then 1 else 0) ∧
    ∀ f ∈ v.record, f.count < Config.segments

/-- The received count of an open record is the number of its flags that are set (R81). -/
abbrev FrameManager.CountAgrees (v : FrameManager) : Prop :=
  ∀ f ∈ v.record, f.count = ((List.range Config.segments).filter fun i => f.bitmap.getLsbD i).length

/-- The pictures are in canonical form. -/
abbrev FrameManager.PicturesWf (v : FrameManager) : Prop := ∀ p ∈ v.pictures.toList, MemWf blackByte p

/-! ## Microphones and analyses (R93 to R100) -/

/-- The ranges of a channel's items (R93, R94). -/
abbrev MicChannel.InRange (c : MicChannel) : Prop :=
  c.staging.length < Config.micCellSamples ∧ c.sequence ≤ 65535 ∧ c.lost ≤ Config.counterMax ∧
    c.ring.length = Config.ringCells ∧ (∀ y ∈ c.ring, -2048 ≤ y ∧ y ≤ 2047) ∧
    c.writePos < Config.ringCells ∧ c.hopCount < Config.hopSamples ∧
    (∀ q ∈ c.request, q.age < Config.requestLife) ∧ c.dropped ≤ Config.counterMax

/-- No analysis request waits while the engine is IDLE, and a RUNNING engine serves the channel last served,
from a window of 400 samples (R99, R100). -/
abbrev State.EngineAgrees (s : State) : Prop :=
  (s.engine.current = none → ∀ c : Channel, (s.channel c).request = none) ∧
    ∀ a ∈ s.engine.current, a.channel = s.engine.lastServed ∧ a.window.length = Config.windowSamples

/-! ## Scores (R112, R122, R125) -/

/-- G is the sum of the four grades, judged that of the three verdicts, and both stop at 65,535 (R122,
R125). -/
abbrev Singer.CountsAgree (x : Singer) : Prop :=
  x.hit + x.near + x.miss + x.silent = x.graded ∧ x.good + x.late + x.missed = x.judged ∧
    x.graded ≤ Config.counterMax ∧ x.judged ≤ Config.counterMax

/-! ## Handsets (R137, R144) -/

/-- Misses stay below 3, since the third takes a handset OFFLINE, an outbox holds at most 4 items, and an
OFFLINE record is as R137 gives it (R137, R138, R144). -/
abbrev HandsetRecord.InRange (x : HandsetRecord) : Prop :=
  x.misses < Config.missLimit ∧ x.outbox.length ≤ Config.outboxPlaces ∧
    (x.online = false → x = HandsetRecord.offline)

/-- A message on its way to the queue manager whose answer is awaited comes from an ONLINE handset. -/
def State.awaits (s : State) : HandOver → Bool
  | .request q => !q.live || (s.handset q.room q.sender).online
  | .cancel c => !c.live || (s.handset c.room c.sender).online
  | _ => true

/-- The answers still awaited are awaited by ONLINE handsets (R140). -/
abbrev State.AwaitedAgree (s : State) : Prop := ∀ h ∈ s.handed, s.awaits h

/-- Every handset record in range, and no answer awaited by an OFFLINE one. -/
abbrev State.HandsetsAgree (s : State) : Prop :=
  (∀ r : RoomId, ∀ h : HandsetId, (s.handset r h).InRange) ∧ s.AwaitedAgree

/-! ## The link (R168, R171) -/

/-- A pair of R170: READY for the device, every other kind for a room. -/
abbrev NoticePair.valid (p : NoticePair) : Prop := p.room = none ↔ p.kind = .ready

/-- The result queue holds at most 16 results; the notice queue holds at most 32 pairs and, with the
pending set, no pair twice; the pending set stands in its order and is not empty only while the queue holds
32 (R168, R171). -/
abbrev Link.QueuesAgree (l : Link) : Prop :=
  l.results.length ≤ Config.resultPlaces ∧ l.notices.length ≤ Config.noticePlaces ∧
    (l.notices ++ l.pendingPairs).Nodup ∧ l.pendingPairs.Pairwise (fun p q => p.rank < q.rank) ∧
    (∀ p ∈ l.notices ++ l.pendingPairs, p.valid) ∧
    (l.pendingPairs ≠ [] → l.notices.length = Config.noticePlaces)

/-- The uplink is not idle with something to send, while it may choose (R169). -/
abbrev Link.Busy (l : Link) : Prop :=
  l.mayChoose → l.nextMic = none ∧ l.results = [] ∧ l.notices = []

/-! ## Terms of the statements -/

/-- A control command's row of the tables in 10.2 and 11.2, with its operands: its code, whether it is
addressed to the device, the payload length it allows (none for the six of varying length), the room byte,
the tag and the bytes after the code. -/
structure ControlRow where
  code : Byte
  device : Bool
  length : Option Nat
  room : Byte
  tag : Byte
  args : List Byte
  deriving DecidableEq, Repr

/-- The row of a command that a CONTROL cell carries; none for the other events. -/
def controlRowOf : Instr → Option ControlRow
  | .powerOn => none
  | .resetLineAssert => none
  | .resetLineRelease => none
  | .linkDown _ => none
  | .linkUp => none
  | .cellIntake _ => none
  | .video _ => none
  | .timeMark _ => none
  | .deviceReset b tag args => some ⟨1, true, some 1, b, tag, args⟩
  | .statusQuery b tag args => some ⟨2, true, some 1, b, tag, args⟩
  | .roomOpen b tag args => some ⟨16, false, some 1, b, tag, args⟩
  | .roomClose b tag args => some ⟨17, false, some 1, b, tag, args⟩
  | .roomReset b tag args => some ⟨18, false, some 1, b, tag, args⟩
  | .roomSettings b tag args => some ⟨19, false, some 28, b, tag, args⟩
  | .noticeMask b tag args => some ⟨20, false, some 13, b, tag, args⟩
  | .bandTable b tag args => some ⟨32, false, none, b, tag, args⟩
  | .palette b tag args => some ⟨33, false, none, b, tag, args⟩
  | .glyphLoad b tag args => some ⟨34, true, none, b, tag, args⟩
  | .glyphClear b tag args => some ⟨35, true, some 1, b, tag, args⟩
  | .pitchCells b tag args => some ⟨48, true, none, b, tag, args⟩
  | .lyricLine b tag args => some ⟨49, false, none, b, tag, args⟩
  | .noteEvents b tag args => some ⟨50, false, none, b, tag, args⟩
  | .songOpen b tag args => some ⟨64, false, some 7, b, tag, args⟩
  | .songRefuse b tag args => some ⟨65, false, some 3, b, tag, args⟩
  | .songStart b tag args => some ⟨66, false, some 5, b, tag, args⟩
  | .songEnd b tag args => some ⟨67, false, some 1, b, tag, args⟩
  | .pause b tag args => some ⟨68, false, some 1, b, tag, args⟩
  | .resume b tag args => some ⟨69, false, some 1, b, tag, args⟩
  | .skip b tag args => some ⟨70, false, some 1, b, tag, args⟩
  | .setTempo b tag args => some ⟨71, false, some 2, b, tag, args⟩
  | .offerPoll b tag args => some ⟨80, false, some 1, b, tag, args⟩
  | .queueRemove b tag args => some ⟨81, false, some 2, b, tag, args⟩
  | .queueMove b tag args => some ⟨82, false, some 3, b, tag, args⟩
  | .timelineTick _ _ _ => none
  | .keyDetent _ => none
  | .endGuard _ => none
  | .evaluation _ => none
  | .pass _ => none
  | .markTimerExpiry _ => none
  | .cueTimerExpiry _ => none
  | .resultHoldExpiry _ => none
  | .videoStaleExpiry _ => none
  | .offerTimerExpiry _ => none
  | .frameCompletion _ => none
  | .outputFrameStart _ => none
  | .samplePair _ _ _ => none
  | .micCellComplete _ => none
  | .hopComplete _ => none
  | .requestExpiry _ => none
  | .analysisComplete => none
  | .analysisResult => none
  | .pollSlot _ => none
  | .replyWindowClose _ => none
  | .handsetReply _ _ => none
  | .handsetOffline _ _ => none
  | .request _ => none
  | .cancel _ => none
  | .uplinkFree => none

/-- Outside a room, the link, the engine and the hand-overs, two states hold the same. -/
abbrev State.SameElsewhere (r : RoomId) (s u : State) : Prop :=
  u.pending = s.pending ∧ u.onLink = s.onLink ∧ u.glyphs = s.glyphs ∧ u.cuts = s.cuts ∧
    ∀ q : RoomId, q ≠ r → u.room q = s.room q

/-- Two states differ in a room and in the link alone. -/
abbrev State.OnlyRoom (r : RoomId) (s u : State) : Prop :=
  s.SameElsewhere r u ∧ u.engine = s.engine ∧ u.handed = s.handed

/-- Two states differ in the link alone. -/
abbrev State.OnlyLink (s u : State) : Prop :=
  u.pending = s.pending ∧ u.onLink = s.onLink ∧ u.glyphs = s.glyphs ∧ u.rooms = s.rooms ∧
    u.engine = s.engine ∧ u.handed = s.handed ∧ u.cuts = s.cuts

/-- A room's event of a kind enters the notice queue unless the room's mask disables it (R170). -/
def Link.hear (m : NoticeMask) (r : RoomId) (k : NoticeKind) (l : Link) : Link :=
  if m.allows k then l.enter ⟨some r, k⟩ else l

/-- A room whose channels' rings, hop counters and requests are clear and whose voiced runs are reset, as on
each transition out of PLAYING (R18, R98). -/
def Room.hushed (rm : Room) : Room :=
  { rm with
    mics := rm.mics.both fun c => { c with ring := emptyRing, writePos := 0, hopCount := 0, request := none }
    singers := rm.singers.both fun x => { x with runStart := none } }

/-- The engine with a running analysis of a room's channel made void (R98, R99). -/
def Engine.voided (r : RoomId) (e : Engine) : Engine :=
  { e with current := e.current.map fun a => if roomOf a.channel = r then { a with void := true } else a }

/-- A queue whose head `e` has left it by a queue change, `es` staying (R151, R155). -/
def RequestQueue.afterHead (e : Entry) (es : List Entry) (q : RequestQueue) : RequestQueue :=
  { q with
    entries := es
    offerTimer := if e.state = .offered then .stopped else q.offerTimer
    suspended := false
    lapsed := if q.lapsed = some e.ticket then none else q.lapsed }

/-- The hand-overs without the clock changes of a room. -/
def State.withoutClockChanges (r : RoomId) (s : State) : List HandOver :=
  s.handed.filter fun h => !h.isClockOf r

/-- A state just after a device reset, or in an assertion of the reset line: every room, the glyphs and the
engine in their starting state, and the displays, the bytes on the link and the notices as given (R19, R20). -/
abbrev State.Fresh (line : Bool) (cause : ReadyCause) (notices : List NoticePair) (onLink : List Byte)
    (shown : RoomId → Display) (s u : State) : Prop :=
  u.pending = s.pending ∧ u.onLink = onLink ∧
    (∀ r : RoomId, u.room r = { Room.start with
      compositor := { Compositor.start with display := shown r } }) ∧
    u.glyphs = ⟨[], [], 0⟩ ∧ u.engine = ⟨none, 7, none, none⟩ ∧ u.handed = [] ∧
    u.link =
      { up := s.link.up, resetLine := line, readyCause := cause, cellsDiscarded := 0, creditStalls := 0,
        results := [], notices := notices, pendingPairs := [], transmit := none, lastSent := 7,
        micWaiting := Vector.replicate 8 none }

/-! ## The part -/

/-- A property that every room has. -/
abbrev State.EveryRoom (P : Room → Prop) (s : State) : Prop := ∀ r : RoomId, P (s.room r)

/-- The pools of the part, shared by the rooms, are not exceeded (R46, R113, R147). -/
abbrev State.PoolsAgree (s : State) : Prop :=
  s.linesUsed ≤ Config.linePool ∧ s.syllablesUsed ≤ Config.syllablePool ∧
    s.notesUsed ≤ Config.notePool ∧ s.entriesUsed ≤ Config.entryPool

/-- The glyph store is filled up to its pointer, and present entries lie below it (R40). -/
abbrev GlyphStore.Filled (g : GlyphStore) : Prop :=
  g.fill ≤ Config.glyphCells ∧ MemWf clearCell g.cells ∧ (∀ c ∈ g.cells, c.1 < g.fill) ∧
    g.table.Pairwise (fun x y => x.1 < y.1) ∧
    ∀ x ∈ g.table, x.1 ≤ 1023 ∧ 4 ≤ x.2.width ∧ x.2.width ≤ 48 ∧
      x.2.offset + Config.glyphRows * x.2.width ≤ g.fill

/-- While the reset line is asserted the part is in its reset state, with nothing to send (R20). -/
abbrev State.HeldInReset (s : State) : Prop :=
  s.link.resetLine →
    s.rooms = Vector.replicate 4 Room.start ∧ s.glyphs = GlyphStore.empty ∧ s.engine = Engine.start ∧
      s.handed = [] ∧ s.link.results = [] ∧ s.link.notices = [] ∧ s.link.pendingPairs = [] ∧
      s.link.transmit = none ∧ s.link.micWaiting = Vector.replicate 8 none

end Sys2Proof.Machine
end

