-- ==== Sys2Proof/Certificates/Slice0/Obligations.lean ====
section
/-! DEFINITION. The statements for the provers. A statement about a command gives the state `u` that its
effect leaves; the command's next state is `u.startUplink`, `u` after the uplink's choice, which
`Obligations.UplinkChoosesInOrder` says. -/

open Sys2Proof Sys2Proof.Machine

/-! ## Steps, resets and the link -/

/-- A step takes the front command and runs `exec` of it on the state with the rest of the queue; with no
command waiting the part idles and nothing changes (the model's choice, log entry 3). -/
def Obligations.StepTakesFrontCommand : Prop :=
  (∀ (c : Instr) (cs : List Instr) (s : State),
    step { s with pending := c :: cs } = exec c { s with pending := cs }) ∧
  ∀ s : State, s.pending = [] → step s = .next s

/-- POWER_ON, the release of the reset line and DEVICE_RESET set the starting state with one READY notice of their
cause; the assertion sets it with none (R19, R20). What was handed on and not yet taken is dropped (log entry 7),
and the values that no rule gives are those of log entry 2: the black pictures of buffers 1 and 2, no residue in
the engine, nothing sent on the handset lines, the display rate. Every display is then black, but that
DEVICE_RESET ends each frame being drawn after a number of its lines that is a free value (R64, log entry 16). The
intake holds no cell then: the bytes of a cell in arrival, for which credit stood, are gone, and other bytes on
the link still wait on the server's side (R19, R164, log entry 10). A release of a line that is not asserted
changes nothing (the model's choice, log entry 5), and a power-on in an assertion raises nothing (log entry 14).
-/
def Obligations.DeviceResetsSetTheStartingState : Prop :=
  ∀ (s : State) (kept : List Byte),
    kept = (if s.link.up = true ∧ s.link.resetLine = false ∧ s.link.results.length < 16 ∧
        (s.onLink.length < 5 ∨ s.onLink.length < 5 + u16 s.onLink 3) then [] else s.onLink) →
    (∃ u, exec .resetLineAssert s = .next u ∧ s.Fresh true .resetLine [] kept (fun _ => .black) u ∧
      u.cuts = s.cuts) ∧
    (s.link.resetLine = true →
      (∃ u, exec .resetLineRelease s = .next u.startUplink ∧
        s.Fresh false .resetLine [⟨none, .ready⟩] s.onLink (fun _ => .black) u ∧ u.cuts = s.cuts) ∧
      ∃ u, exec .powerOn s = .next u ∧ s.Fresh true .powerOn [] s.onLink (fun _ => .black) u ∧
        u.cuts = s.cuts) ∧
    (s.link.resetLine = false →
      (exec .resetLineRelease s = .next s.startUplink) ∧
      ∃ u, exec .powerOn s = .next u.startUplink ∧
        s.Fresh false .powerOn [⟨none, .ready⟩] kept (fun _ => .black) u ∧ u.cuts = s.cuts) ∧
    (s.takesCells = true → ∀ tag : Byte,
      ∃ u, exec (.deviceReset 15 tag []) s = .next u.startUplink ∧
        s.Fresh false .resetCommand [⟨none, .ready⟩] s.onLink
          (fun r => (s.room r).compositor.display.cutAfter (min 720 (Config.linesDrawn s.cuts r))) u ∧
        u.cuts = s.cuts + 1)

/-- The values that R19 and the rules it gathers give a room, the state of the whole part at reset, and that this
state meets every invariant that the steps keep. That the link is DOWN there and the reset line released is the
model's choice (log entry 1), and so are the black pictures of buffers 1 and 2, the display rate and what else no
rule gives a reset value (log entry 2). -/
def Obligations.ResetStateHoldsTheStartingValues : Prop :=
  (∀ (black : PartColours) (mic : MicChannel) (singer : Singer),
    black = ⟨⟨0, 128, 128⟩, ⟨0, 128, 128⟩, ⟨0, 128, 128⟩⟩ →
    mic = { staging := [], sequence := 0, lost := 0, ring := List.replicate 640 0, writePos := 0,
            hopCount := 0, request := none, dropped := 0 } →
    singer = { graded := 0, hit := 0, near := 0, miss := 0, silent := 0, good := 0, late := 0, missed := 0,
               judged := 0, runStart := none } →
    Room.start =
      { phase := .dark, reasons := ⟨false, false⟩, markTimer := .stopped, cueTimer := .stopped
        holdTimer := .stopped, staleTimer := .stopped
        settings :=
          { displayMode := .hz60, preroll := 2000, linger := 500, resultHold := 8, offerTimeout := 5,
            cueTimeout := 10, markTimeout := 400, tolerance := 1, octaveAllowance := true,
            silenceThreshold := 4000, voicingFactor := 5, onsetWindow := 80, keyGrace := 200,
            micParts := ⟨.a, .b⟩, allowRepeats := false, handsetLimit := 4, defaultTempo := 100,
            digitBase := 48 }
        timeline :=
          { clock := 0, tempo := 100, accumulator := 0, catchUp := 0, hold := 0, songLength := none,
            keyOffset := 0, keyStamp := 0, knobA := ⟨[], none⟩, knobB := ⟨[], none⟩, detents := 0 }
        lyrics := ⟨[], none, none⟩
        compositor :=
          { active :=
              [⟨520, .video, 0, .left, 0, ⟨true, true, true, true⟩⟩,
                ⟨60, .lyricUpper, 3, .left, 40, ⟨false, true, true, false⟩⟩,
                ⟨60, .lyricLower, 3, .right, 40, ⟨false, true, true, false⟩⟩,
                ⟨40, .score, 0, .center, 0, ⟨false, false, true, true⟩⟩,
                ⟨40, .video, 0, .left, 0, ⟨true, true, true, true⟩⟩]
            slot := none, palette := ⟨black, black, black, ⟨0, 128, 128⟩⟩, rate := .hz60, display := .black }
        video :=
          { roles := #v[.front, .free, .free], pictures := #v[[], [], []], record := none
            lastCompleted := none, completed := 0, dropped := 0, abandoned := 0, discarded := 0 }
        mics := ⟨mic, mic⟩, singers := ⟨singer, singer⟩, melody := ⟨[], none, none, none⟩, result := none
        line :=
          { slotTimer := 10, slotCount := 0, slotCursor := 0, discoveryCursor := 15, slot := none
            received := [], garbled := 0, silent := 0
            records := Vector.replicate 15 ⟨false, 0, none, none, false, []⟩, changed := none, sent := [] }
        queue := ⟨[], 1, .stopped, false, none⟩
        mask := ⟨true, true, true, true, true, true, true, true, true, true, true, true⟩ }) ∧
  State.reset.Fresh false .powerOn [⟨none, .ready⟩] [] (fun _ => .black) State.reset ∧
  State.reset.pending = [] ∧ State.reset.onLink = [] ∧ State.reset.link.up = false ∧
  State.reset.link.QueuesAgree ∧ State.reset.link.Busy ∧ State.reset.HeldInReset ∧
  State.reset.EveryRoom (fun rm => rm.ReasonsAgree ∧ rm.TimersAgree ∧ rm.queue.Ordered ∧ rm.HeadAgrees ∧
    rm.WithinLimits ∧ rm.DarkIsEmpty) ∧
  State.reset.HandsetsAgree ∧
  State.reset.EveryRoom (fun rm => rm.singers.one.CountsAgree ∧ rm.singers.two.CountsAgree ∧
    rm.video.RolesAgree ∧ rm.video.CountAgrees ∧ rm.video.PicturesWf ∧ rm.lyrics.RowsAgree ∧ rm.lyrics.InOrder ∧
    rm.mics.one.InRange ∧ rm.mics.two.InRange) ∧
  State.reset.EngineAgrees ∧ State.reset.PoolsAgree ∧ State.reset.glyphs.Filled ∧
  State.reset.EveryRoom Room.ValuesInRange

/-- LINK_DOWN leaves every queue and the transmit register as they are. Under credit it discards and counts a
cell of which some bytes have arrived but not all that its length field gives (R165, R175); the bytes of its
operand are the last to arrive, and bytes that are no such cell stay on the link (the model's choice, log entries
10 and 11). LINK_UP raises READY with cause NONE unless one is waiting (R21, R176); with the link UP it changes
nothing (log entry 5), and an assertion of the reset line keeps READY from being raised (log entry 14). -/
def Obligations.LinkDownAndUp : Prop :=
  (∀ (s : State) (lastBytes l : List Byte), l = s.onLink ++ lastBytes →
    (s.link.up = true → s.link.resetLine = false → s.link.results.length < 16 → l ≠ [] →
      l.length < 5 ∨ l.length < 5 + u16 l 3 →
      exec (.linkDown lastBytes) s =
        .next { s with
          onLink := []
          link := { s.link with up := false, cellsDiscarded := satInc s.link.cellsDiscarded } }) ∧
    (s.link.up = false ∨ s.link.resetLine = true ∨ 16 ≤ s.link.results.length ∨ l = [] ∨
        (5 ≤ l.length ∧ 5 + u16 l 3 ≤ l.length) →
      exec (.linkDown lastBytes) s =
        .next { s with onLink := l, link := { s.link with up := false } })) ∧
  ∀ s : State,
    (s.link.up = true → exec .linkUp s = .next s.startUplink) ∧
    (s.link.up = false →
      (s.link.resetLine = true ∨ ⟨none, .ready⟩ ∈ s.link.notices ∨ ⟨none, .ready⟩ ∈ s.link.pendingPairs ∨
          (∃ p content, s.link.transmit = some (.notice p content) ∧ p.kind = .ready) →
        exec .linkUp s = .next ({ s with link := { s.link with up := true } }).startUplink) ∧
      (s.link.resetLine = false → ⟨none, .ready⟩ ∉ s.link.notices → ⟨none, .ready⟩ ∉ s.link.pendingPairs →
        (∀ p content, s.link.transmit = some (.notice p content) → p.kind ≠ .ready) →
        ∃ u, exec .linkUp s = .next u.startUplink ∧ s.OnlyLink u ∧
          u.link =
            if s.link.notices.length < 32 then
              { s.link with
                up := true, readyCause := .none, notices := s.link.notices ++ [⟨none, .ready⟩] }
            else
              { s.link with
                up := true, readyCause := .none
                pendingPairs := insertPair ⟨none, .ready⟩ s.link.pendingPairs }))

/-- A free uplink takes the waiting MIC cell that comes first after the channel last sent, otherwise the head
result, otherwise the head notice with the content of that moment, the lowest pending pair then joining the notice
queue; UPLINK_FREE empties the transmit register and lets it choose, but not over a link that is down or in an
assertion of the reset line (R169, R171, R173). The content of each notice kind, made when it is sent, and the
bytes of each upstream cell are those of 11.1 (R173, R178). The song number and the singer entries of a cleared
result record are sent as 0 (the model's choice, log entry 25), and the state of a HANDSET_CHANGED that names no
handset is a free value (log entry 17); the line id of a LYRIC_SKIPPED with no kept id is sent as 0 (log entry
27). -/
def Obligations.UplinkChoosesInOrder : Prop :=
  (∀ s : State, s.link.up = true → s.link.resetLine = false →
    exec .uplinkFree s = .next ({ s with link := { s.link with transmit := none } }).startUplink) ∧
  (∀ s : State, s.link.up = false ∨ s.link.resetLine = true → exec .uplinkFree s = .next s) ∧
  (∀ s : State, s.OnlyLink s.startUplink) ∧
  (∀ s : State, s.link.up = false ∨ s.link.resetLine = true ∨ s.link.transmit.isSome = true →
    s.startUplink = s) ∧
  (∀ s : State, s.link.up = true → s.link.resetLine = false → s.link.transmit = none →
    (∀ (c : Channel) (x : MicCell), s.link.micWaiting.get c = some x →
      (∀ d : Channel, (s.link.micWaiting.get d).isSome = true →
        (c - s.link.lastSent - 1).val ≤ (d - s.link.lastSent - 1).val) →
      s.startUplink.link =
        { s.link with
          transmit := some (.mic c x), micWaiting := s.link.micWaiting.set c none, lastSent := c }) ∧
    ((∀ c : Channel, s.link.micWaiting.get c = none) →
      (∀ x xs, s.link.results = x :: xs →
        s.startUplink.link = { s.link with transmit := some (.result x), results := xs }) ∧
      (s.link.results = [] →
        (∀ p ps, s.link.notices = p :: ps →
          s.startUplink.link =
            { s.link with
              transmit := some (.notice p (s.noticeContent p))
              notices := ps ++ s.link.pendingPairs.take 1
              pendingPairs := s.link.pendingPairs.drop 1 }) ∧
        (s.link.notices = [] → s.startUplink = s)))) ∧
  -- the content of notices
  (∀ s : State, s.noticeContent ⟨none, .ready⟩ = [match s.link.readyCause with
    | .none => 0 | .powerOn => 1 | .resetLine => 2 | .resetCommand => 3]) ∧
  (∀ (s : State) (r : RoomId) (rm : Room) (pair : NoticeKind → NoticePair) (b : Nat → List Byte)
      (b2 b4 : Nat → List Byte), rm = s.room r → pair = (fun k => ⟨some r, k⟩) →
    b = (fun n => [BitVec.ofNat 8 n]) → b2 = (fun n => b (n / 256) ++ b n) →
    b4 = (fun n => b2 (n / 65536) ++ b2 n) →
    (∀ e : Entry, rm.queue.entries.head? = some e → e.state = .offered →
      s.noticeContent (pair .offer) = b e.ticket ++ b4 e.song ++ b (if e.duet then 1 else 0) ++
        [BitVec.ofInt 8 (e.preset.getD (-128))]) ∧
    ((∀ e ∈ rm.queue.entries.head?, e.state ≠ .offered) →
      s.noticeContent (pair .offer) = [0, 0, 0, 0, 0, 0, 128]) ∧
    s.noticeContent (pair .offerTimeout) = b (rm.queue.lapsed.getD 0) ∧
    s.noticeContent (pair .cueTimeout) =
      (match rm.result with | some x => b x.ticket ++ b4 x.song | none => [0, 0, 0, 0, 0]) ∧
    (∀ e : Entry, rm.queue.entries.head? = some e → rm.phase = .playing ∨ rm.phase = .paused →
      s.noticeContent (pair .songStarted) = b e.ticket ++ b4 e.song ++ b4 rm.timeline.clock) ∧
    (rm.phase ≠ .playing → rm.phase ≠ .paused →
      s.noticeContent (pair .songStarted) = List.replicate 9 0) ∧
    (∀ state reasons : Nat, state = (match rm.phase with
        | .dark => 0 | .attract => 1 | .cueing => 2 | .playing => 3 | .paused => 4 | .result => 5) →
      reasons = (if rm.reasons.stall then 1 else 0) + (if rm.reasons.staff then 2 else 0) →
      s.noticeContent (pair .paused) = b state ++ b reasons ∧
        s.noticeContent (pair .resumed) = b state ++ b reasons) ∧
    s.noticeContent (pair .keyChanged) = [BitVec.ofInt 8 rm.timeline.keyOffset] ∧
    (∀ (x : ResultRecord) (entry : SingerEntry → List Byte), rm.result = some x →
      entry = (fun e => b (match e.part with | .none => 0 | .a => 1 | .b => 2) ++
        b (if e.notScored then 1 else 0) ++ b2 e.pitch ++ b2 e.timing ++ b2 e.final ++ b2 e.counts.hit ++
        b2 e.counts.near ++ b2 e.counts.miss ++ b2 e.counts.silent ++ b2 e.counts.graded ++
        b2 e.counts.good ++ b2 e.counts.late ++ b2 e.counts.missed ++ b2 e.counts.judged ++ b2 e.dropped) →
      s.noticeContent (pair .result) =
        b x.ticket ++ b4 x.song ++ b (match x.outcome with | .complete => 1 | .aborted => 2) ++
          entry x.singers.one ++ entry x.singers.two) ∧
    (rm.result = none → s.noticeContent (pair .result) = List.replicate 62 0) ∧
    s.noticeContent (pair .queueChanged) = b rm.queue.entries.length ∧
    s.noticeContent (pair .handsetChanged) =
      (match rm.line.changed with
        | some h => b (h.val + 1) ++ b (if (rm.line.records.get h).online then 1 else 0)
        | none => [0, Config.stateOfNoHandset]) ∧
    s.noticeContent (pair .lyricSkipped) =
      (match rm.lyrics.lastSkipped with | some n => [1] ++ b2 n | none => [0, 0, 0]) ∧
    s.noticeContent (pair .videoStale) =
      (match rm.video.lastCompleted with | some n => [1] ++ b2 n | none => [0, 0, 0])) ∧
  -- the bytes of upstream cells
  ∀ b2 : Nat → List Byte, b2 = (fun n => [BitVec.ofNat 8 (n / 256), BitVec.ofNat 8 n]) →
    (∀ (r : RoomId) (m : Mic) (x : MicCell), x.samples.length = 64 →
      (UpCell.mic (channelOf r m) x).bytes =
        [9, BitVec.ofNat 8 r.val, 0, 0, 131, BitVec.ofNat 8 (m.index + 1)] ++ b2 x.sequence ++
          x.samples.flatMap fun y => b2 y.toNat) ∧
    (∀ x : Result,
      (UpCell.result x).bytes = [10, x.room, x.tag] ++ b2 (2 + x.picture.length) ++
        [match x.status with
          | .ok => 0 | .okClamped => 1 | .busy => 2 | .badRoom => 3 | .noSpace => 4 | .order => 5
          | .locked => 6 | .badRecord => 7 | .badTable => 8 | .stale => 9 | .unknownKind => 10,
          BitVec.ofNat 8 x.code] ++ x.picture) ∧
    ∀ (p : NoticePair) (content : List Byte),
      (UpCell.notice p content).bytes =
        ([11, match p.room with | some r => BitVec.ofNat 8 r.val | none => 15, 0] : List Byte) ++ b2 (1 + content.length) ++
          ([match p.kind with
            | .ready => 1 | .offer => 2 | .offerTimeout => 3 | .cueTimeout => 4 | .songStarted => 5
            | .paused => 6 | .resumed => 7 | .keyChanged => 8 | .result => 9 | .queueChanged => 10
            | .handsetChanged => 11 | .lyricSkipped => 12 | .videoStale => 13] : List Byte) ++ content

/-- An entering event is merged when its pair waits already, joins the tail of a notice queue of fewer than
32 entries, and otherwise joins the pending set (R171). -/
def Obligations.NoticeEventsMergeJoinOrPend : Prop :=
  ∀ (p : NoticePair) (l : Link),
    (p ∈ l.notices ∨ p ∈ l.pendingPairs → l.enter p = l) ∧
    (p ∉ l.notices → p ∉ l.pendingPairs →
      (l.notices.length < 32 → l.enter p = { l with notices := l.notices ++ [p] }) ∧
      (32 ≤ l.notices.length → ∃ before after, l.pendingPairs = before ++ after ∧
        l.enter p = { l with pendingPairs := before ++ p :: after } ∧
        (l.pendingPairs.Pairwise (fun x y => x.rank < y.rank) →
          (∀ x ∈ before, x.rank ≤ p.rank) ∧ ∀ x ∈ after, p.rank < x.rank)))

/-! ## The intake -/

/-- The intake reads five header bytes (kind, room, tag and a payload length of two bytes) and that many payload
bytes (R178). Under credit it hands a VIDEO cell of a room on, and a TIME_MARK cell of a room when it is four
bytes long; it discards and counts the others of these kinds, and answers a kind that is neither of these nor
CONTROL with UNKNOWN_KIND and command code 0 (R165, R178). A CONTROL cell whose first byte is a code of the
catalogue is that command; with no first byte, or with a code that names none, it is answered UNKNOWN_KIND with
command code 0 (R166). -/
def Obligations.IntakeTakesEachKind : Prop :=
  (∀ (i : Instr) (k : ControlRow) (s : State) (high low : Byte), controlRowOf i = some k →
    k.args.length + 1 = 256 * high.toNat + low.toNat →
    exec (.cellIntake ([3, k.room, k.tag, high, low, k.code] ++ k.args)) s = exec i s) ∧
  (∀ (s : State) (room tag : Byte), s.takesCells = true →
    exec (.cellIntake [3, room, tag, 0, 0]) s =
      .next (s.answer ⟨tag, room, .unknownKind, 0, []⟩).startUplink) ∧
  (∀ (s : State) (room tag high low code : Byte) (args : List Byte), s.takesCells = true →
    args.length + 1 = 256 * high.toNat + low.toNat →
    code.toNat ∉ [1, 2, 16, 17, 18, 19, 20, 32, 33, 34, 35, 48, 49, 50, 64, 65, 66, 67, 68, 69, 70, 71, 80,
      81, 82] →
    exec (.cellIntake ([3, room, tag, high, low, code] ++ args)) s =
      .next (s.answer ⟨tag, room, .unknownKind, 0, []⟩).startUplink) ∧
  ∀ (s : State) (kind room tag high low : Byte) (payload bytes : List Byte), s.takesCells = true →
    payload.length = 256 * high.toNat + low.toNat → bytes = [kind, room, tag, high, low] ++ payload →
    (kind = 1 → ∀ r : RoomId, room.toNat = r.val →
      exec (.cellIntake bytes) s =
        .next ({ s with handed := s.handed ++ [HandOver.video r payload] }).startUplink) ∧
    (kind = 2 → ∀ r : RoomId, room.toNat = r.val → payload.length = 4 →
      exec (.cellIntake bytes) s =
        .next ({ s with handed := s.handed ++ [HandOver.mark r (u32 payload 0)] }).startUplink) ∧
    ((kind = 1 ∧ 4 ≤ room.toNat) ∨ (kind = 2 ∧ (4 ≤ room.toNat ∨ payload.length ≠ 4)) →
      exec (.cellIntake bytes) s =
        .next ({ s with link := { s.link with
          cellsDiscarded := satInc s.link.cellsDiscarded } }).startUplink) ∧
    (kind ≠ 1 → kind ≠ 2 → kind ≠ 3 →
      exec (.cellIntake bytes) s =
        .next (s.answer ⟨tag, room, .unknownKind, 0, []⟩).startUplink)

/-- Credit is granted while the link is UP, the reset line is not asserted and the result queue has a free
place. Bytes that arrive stand behind those already on the link; the first cell there is taken under credit, once
all of it has arrived, as if it came alone, and the next cell begins after its payload. Without credit, or with
less than a cell, the bytes wait (R164, R168, R178; that bytes wait there in a state of the part is log entry
10). -/
def Obligations.CellsWaitForCredit : Prop :=
  (∀ s : State, s.takesCells = true ↔
    s.link.up = true ∧ s.link.resetLine = false ∧ s.link.results.length < 16 ∧ s.onLink = []) ∧
  ∀ (s : State) (bytes l : List Byte), l = s.onLink ++ bytes →
    (s.link.up = false ∨ s.link.resetLine = true ∨ 16 ≤ s.link.results.length ∨ l.length < 5 ∨
        l.length < 5 + u16 l 3 →
      exec (.cellIntake bytes) s = .next ({ s with onLink := l }).startUplink) ∧
    ∀ (kind room tag high low : Byte) (payload rest : List Byte),
      s.link.up = true → s.link.resetLine = false → s.link.results.length < 16 →
      l = [kind, room, tag, high, low] ++ payload ++ rest →
      payload.length = 256 * high.toNat + low.toNat →
      ∃ u, exec (.cellIntake ([kind, room, tag, high, low] ++ payload)) { s with onLink := [] } = .next u ∧
        exec (.cellIntake bytes) s = .next { u with onLink := rest }

/-- A command whose room byte does not suit it is answered BAD_ROOM, and one whose payload length it does not
allow BAD_RECORD; neither changes anything but the result queue (R166). A result joins at the tail, and the
one that fills the queue to 16 counts a credit stall (R168). -/
def Obligations.IntakeRefusesAndAnswers : Prop :=
  (∀ (i : Instr) (k : ControlRow) (s : State), controlRowOf i = some k → s.takesCells = true →
    ((k.device = true ∧ k.room ≠ 15) ∨ (k.device = false ∧ 4 ≤ k.room.toNat) →
      exec i s = .next (s.answer ⟨k.tag, k.room, .badRoom, k.code.toNat, []⟩).startUplink) ∧
    ((k.device = true ∧ k.room = 15) ∨ (k.device = false ∧ k.room.toNat < 4) →
      ∀ n, k.length = some n → k.args.length + 1 ≠ n →
        exec i s = .next (s.answer ⟨k.tag, k.room, .badRecord, k.code.toNat, []⟩).startUplink)) ∧
  ∀ (s : State) (x : Result), s.OnlyLink (s.answer x) ∧
    (s.answer x).link =
      { s.link with
        results := s.link.results ++ [x]
        creditStalls :=
          if s.link.results.length = 15 then satInc s.link.creditStalls else s.link.creditStalls }

/-- STATUS_QUERY is answered OK with the picture of the moment before its result joins, and changes nothing else
(R174). The picture is 568 bytes long and carries the items of the table in 10.5 in the order of its rows, each
item for all its rooms, channels, buffers or addresses in turn (the order, and that the result it rides in is not
counted, are log entry 13), in the widths and with the codes of 11.1 for values that are none. -/
def Obligations.StatusQueryReportsOneMoment : Prop :=
  (∀ (s : State) (tag : Byte), s.takesCells = true →
    exec (.statusQuery 15 tag []) s = .next (s.answer ⟨tag, 15, .ok, 2, s.statusPicture⟩).startUplink) ∧
  ∀ (s : State) (p : List Byte), p = s.statusPicture →
    p.length = 568 ∧
    -- the part
    u8 p 0 = (match s.link.readyCause with
      | .none => 0 | .powerOn => 1 | .resetLine => 2 | .resetCommand => 3) ∧
    u16 p 1 = s.link.cellsDiscarded % 65536 ∧ u16 p 3 = s.link.creditStalls % 65536 ∧
    u16 p 5 = s.link.results.length % 65536 ∧ u16 p 7 = s.link.notices.length % 65536 ∧
    u16 p 9 = s.link.pendingPairs.length % 65536 ∧
    u32 p 43 = s.glyphs.fill % 4294967296 ∧ u16 p 47 = s.glyphs.table.length % 65536 ∧
    u16 p 81 = (96 - s.linesUsed) % 65536 ∧ u16 p 83 = (1024 - s.syllablesUsed) % 65536 ∧
    u8 p 161 = (if s.engine.table.isSome then 1 else 0) ∧
    u8 p 162 = (if s.engine.current.isSome then 1 else 0) ∧
    u8 p 163 = (match s.engine.current with | some a => a.channel.val | none => 255) ∧
    u16 p 204 = (1024 - s.notesUsed) % 65536 ∧ u16 p 566 = (96 - s.entriesUsed) % 65536 ∧
    -- what the pools have in use, in all rooms
    (∀ n : (Room → Nat) → Nat, n = (fun f : Room → Nat => f (s.room 0) + f (s.room 1) + f (s.room 2) + f (s.room 3)) →
      s.linesUsed = n (fun rm => rm.lyrics.lines.length) ∧
      s.syllablesUsed = n (fun rm => (rm.lyrics.lines.map fun l => l.syllables.length).sum) ∧
      s.notesUsed = n (fun rm => rm.melody.notes.length) ∧
      s.entriesUsed = n (fun rm => rm.queue.entries.length)) ∧
    -- a room
    (∀ (r : RoomId) (rm : Room) (k : Nat), rm = s.room r → k = r.val →
      u8 p (11 + k) = (match rm.phase with
        | .dark => 0 | .attract => 1 | .cueing => 2 | .playing => 3 | .paused => 4 | .result => 5) ∧
      u8 p (15 + k) = (if rm.reasons.stall then 1 else 0) + (if rm.reasons.staff then 2 else 0) ∧
      u32 p (19 + 4 * k) = rm.timeline.clock % 4294967296 ∧ u8 p (35 + k) = rm.timeline.tempo % 256 ∧
      i8 p (39 + k) = rm.timeline.keyOffset.bmod 256 ∧
      u16 p (49 + 2 * k) = rm.lyrics.lines.length % 65536 ∧
      u16 p (57 + 2 * k) = (rm.lyrics.lines.map fun l => l.syllables.length).sum % 65536 ∧
      u32 p (65 + 4 * k) =
        (match rm.lyrics.lastLoaded with | some z => z.start % 4294967296 | none => 4294967295) ∧
      (∀ b : Fin 3, u8 p (85 + 3 * k + b.val) = (match rm.video.roles.get b with
        | .front => 0 | .ready => 1 | .filling => 2 | .free => 3)) ∧
      u8 p (97 + 3 * k) = (if rm.video.lastCompleted.isSome then 1 else 0) ∧
      u16 p (98 + 3 * k) = rm.video.lastCompleted.getD 0 % 65536 ∧
      u8 p (109 + 5 * k) = (if rm.video.record.isSome then 1 else 0) ∧
      u16 p (110 + 5 * k) = (match rm.video.record with | some f => f.sequence | none => 0) % 65536 ∧
      u16 p (112 + 5 * k) = (match rm.video.record with | some f => f.count | none => 0) % 65536 ∧
      u16 p (129 + 2 * k) = rm.video.completed % 65536 ∧ u16 p (137 + 2 * k) = rm.video.dropped % 65536 ∧
      u16 p (145 + 2 * k) = rm.video.abandoned % 65536 ∧ u16 p (153 + 2 * k) = rm.video.discarded % 65536 ∧
      u16 p (196 + 2 * k) = rm.melody.notes.length % 65536 ∧
      u16 p (238 + 2 * k) = rm.line.garbled % 65536 ∧ u16 p (246 + 2 * k) = rm.line.silent % 65536 ∧
      u16 p (554 + 2 * k) = rm.queue.entries.length % 65536 ∧
      u8 p (562 + k) = (match rm.queue.entries.head? with
        | none => 255
        | some e => match e.state with | .queued => 0 | .offered => 1 | .loading => 2 | .playing => 3)) ∧
    -- a channel
    (∀ (r : RoomId) (m : Mic) (x : Singer) (k : Nat), x = (s.room r).singers.get m →
      k = 2 * r.val + m.index →
      u16 p (164 + 2 * k) = ((s.room r).mics.get m).dropped % 65536 ∧
      u16 p (180 + 2 * k) = ((s.room r).mics.get m).lost % 65536 ∧
      u16 p (206 + 2 * k) = x.graded % 65536 ∧
      u16 p (222 + 2 * k) = (if x.graded = 0 then 65535
        else 1000 * (4 * x.hit + 2 * x.near) / (4 * x.graded)) % 65536) ∧
    -- a handset address
    ∀ (r : RoomId) (h : HandsetId) (x : HandsetRecord) (k : Nat), x = (s.room r).line.records.get h →
      k = 15 * r.val + h.val →
      u8 p (254 + k) = (if x.online then 1 else 0) ∧ u16 p (314 + 2 * k) = x.misses % 65536 ∧
      u16 p (434 + 2 * k) = x.outbox.length % 65536

/-! ## Commands of the room controller and the tables -/

/-- ROOM_OPEN for a room in DARK puts it in ATTRACT, starts the video-stale timer at 2 s, is an offer trigger
and is answered OK, a VIDEO cell handed on before it being dropped, since it found the room DARK (R4, R89); in
any other state it is refused BUSY and changes nothing (R4).

ROOM_CLOSE puts a room in DARK from any state: timers stopped, reasons emptied, the timeline cleared but
for its knob filter, lines, notes, singers, result, rings, frames and queue cleared, CANCELLED news placed for
every entry, a running analysis made void; the configuration, the ticket counter and the handset records are
kept. QUEUE_CHANGED is raised when entries were removed (R5, R22, R160). The frame being drawn ends after a
number of its lines that is a free value (R64, log entry 16). The clock changes and detents not yet taken are
dropped (log entry 7), and buffers 1 and 2 are black (log entry 2). -/
def Obligations.RoomOpensAndCloses : Prop :=
  (∀ (s : State) (b tag : Byte) (r : RoomId), s.takesCells = true → b.toNat = r.val →
    ((s.room r).phase = .dark →
      exec (.roomOpen b tag []) s =
        .next ((({ s.setRoom r { s.room r with phase := .attract, staleTimer := .running 2000 } with
            handed := s.handed.filter fun h => !h.isVideoOf r }).offerTrigger r).answer
              ⟨tag, b, .ok, 16, []⟩).startUplink) ∧
    ((s.room r).phase ≠ .dark →
      exec (.roomOpen b tag []) s = .next (s.answer ⟨tag, b, .busy, 16, []⟩).startUplink)) ∧
  ∀ (s : State) (b tag : Byte) (r : RoomId), s.takesCells = true → b.toNat = r.val →
    exec (.roomClose b tag []) s = .next
      ({ s.setRoom r
          { s.room r with
            phase := .dark, reasons := ⟨false, false⟩
            markTimer := .stopped, cueTimer := .stopped, holdTimer := .stopped, staleTimer := .stopped
            timeline :=
              { clock := 0, tempo := (s.room r).settings.defaultTempo, accumulator := 0, catchUp := 0,
                hold := 0, songLength := none, keyOffset := 0, keyStamp := 0,
                knobA := (s.room r).timeline.knobA, knobB := (s.room r).timeline.knobB, detents := 0 }
            lyrics := { (s.room r).lyrics with lines := [], lastLoaded := none }
            compositor := { (s.room r).compositor with
              display := (s.room r).compositor.display.cutAfter (min 720 (Config.linesDrawn s.cuts r)) }
            video := FrameManager.start
            mics := ⟨MicChannel.start, MicChannel.start⟩
            singers := ⟨Singer.start, Singer.start⟩
            melody := ⟨[], none, none, none⟩
            result := none
            line := (s.room r).queue.entries.foldl
              (fun (ln : RequestLine) (e : Entry) => ln.placeNews e.owner ⟨.cancelled, e.ticket⟩) (s.room r).line
            queue :=
              { entries := [], counter := (s.room r).queue.counter, offerTimer := .stopped,
                suspended := false, lapsed := none } } with
        engine := s.engine.voided r
        handed := s.handed.filter fun h => !(h.isClockOf r || h.isDetentOf r)
        cuts := s.cuts + 1
        link := (if (s.room r).queue.entries = [] then s.link
          else s.link.hear (s.room r).mask r .queueChanged).answer ⟨tag, b, .ok, 17, []⟩ }).startUplink

/-- ROOM_RESET carries out a close and returns the room to its default configuration, its handset records
OFFLINE; only the knob filter, the kept skipped id, the display rate, the ticket counter and the most recently
changed handset stay, with the last message sent on the line, which no rule clears (R6, R22, R133, R137). The
clock changes and detents not yet taken are dropped (log entry 7), answers on their way are no longer awaited
(log entry 23), buffers 1 and 2 are black (log entry 2), and the frame being drawn ends after a number of its lines
that is a free value (R64, log entry 16). -/
def Obligations.RoomResetRestoresDefaults : Prop :=
  ∀ (s : State) (b tag : Byte) (r : RoomId), s.takesCells = true → b.toNat = r.val →
    exec (.roomReset b tag []) s = .next
      ({ s.setRoom r
          { Room.start with
            timeline :=
              { Timeline.start with
                knobA := (s.room r).timeline.knobA, knobB := (s.room r).timeline.knobB }
            lyrics := ⟨[], none, (s.room r).lyrics.lastSkipped⟩
            compositor := { Compositor.start with
              rate := (s.room r).compositor.rate
              display := (s.room r).compositor.display.cutAfter (min 720 (Config.linesDrawn s.cuts r)) }
            queue := { RequestQueue.start with counter := (s.room r).queue.counter }
            line :=
              { RequestLine.start with
                changed := (s.room r).line.changed, sent := (s.room r).line.sent } } with
        engine := s.engine.voided r
        handed := (s.handed.filter fun h : HandOver => !(h.isClockOf r || h.isDetentOf r)).map
          (HandOver.forget r fun _ => true)
        cuts := s.cuts + 1
        link := (if (s.room r).queue.entries = [] then s.link
          else s.link.hear (s.room r).mask r .queueChanged).answer ⟨tag, b, .ok, 18, []⟩ }).startUplink

/-- ROOM_SETTINGS writes the whole record in one step, read at the offsets of 11.2 over their whole width, its
numbers held within their ranges and the mic parts kept while a song is open: OK when it is written as given,
OK_CLAMPED otherwise; a display mode, on/off field or mic part whose code names no value refuses it whole
BAD_RECORD (R16, R17, R179). -/
def Obligations.RoomSettingsWriteTheWholeRecord : Prop :=
  ∀ (s : State) (b tag : Byte) (r : RoomId) (args : List Byte) (byte two : Nat → Nat),
    s.takesCells = true → b.toNat = r.val →
    args.length = 27 → byte = (fun i => (args.getD i 0).toNat) → two = (fun i => 256 * byte i + byte (i + 1)) →
    (1 < byte 0 ∨ 1 < byte 11 ∨ 2 < byte 20 ∨ 2 < byte 21 ∨ 1 < byte 22 →
      exec (.roomSettings b tag args) s = .next (s.answer ⟨tag, b, .badRecord, 19, []⟩).startUplink) ∧
    ∀ (t w : Settings) (part : Nat → MicPart), byte 0 ≤ 1 → byte 11 ≤ 1 → byte 20 ≤ 2 → byte 21 ≤ 2 → byte 22 ≤ 1 →
      part = (fun n => if n = 1 then .a else if n = 2 then .b else .none) →
      t =
        { displayMode := if byte 0 = 0 then .hz60 else .hz50, preroll := two 1, linger := two 3
          resultHold := byte 5, offerTimeout := byte 6, cueTimeout := byte 7, markTimeout := two 8
          tolerance := byte 10, octaveAllowance := decide (byte 11 = 1)
          silenceThreshold := 65536 * two 12 + two 14, voicingFactor := byte 16, onsetWindow := byte 17
          keyGrace := two 18, micParts := ⟨part (byte 20), part (byte 21)⟩
          allowRepeats := decide (byte 22 = 1), handsetLimit := byte 23, defaultTempo := byte 24
          digitBase := two 25 } →
      w =
        { t with
          preroll := max 500 (min 5000 t.preroll), linger := min 3000 t.linger
          resultHold := max 3 (min 30 t.resultHold), offerTimeout := max 1 (min 10 t.offerTimeout)
          cueTimeout := max 2 (min 30 t.cueTimeout), markTimeout := max 100 (min 2000 t.markTimeout)
          tolerance := min 1 t.tolerance, silenceThreshold := min 409600 t.silenceThreshold
          voicingFactor := max 1 (min 16 t.voicingFactor), onsetWindow := max 20 (min 200 t.onsetWindow)
          keyGrace := min 500 t.keyGrace, handsetLimit := max 1 (min 8 t.handsetLimit)
          defaultTempo := max 80 (min 120 t.defaultTempo), digitBase := min 1014 t.digitBase
          micParts :=
            if (s.room r).phase = .cueing ∨ (s.room r).phase = .playing ∨ (s.room r).phase = .paused then
              (s.room r).settings.micParts
            else t.micParts } →
      exec (.roomSettings b tag args) s = .next
        ((s.setRoom r { s.room r with settings := w }).answer
          ⟨tag, b, if w = t then .ok else .okClamped, 19, []⟩).startUplink

/-- NOTICE_MASK writes every flag in one step but keeps OFFER enabled, answering OK_CLAMPED when the command
would disable it; a flag byte other than 0 or 1 refuses it (R172). -/
def Obligations.NoticeMaskKeepsOfferEnabled : Prop :=
  ∀ (s : State) (b tag : Byte) (r : RoomId), s.takesCells = true → b.toNat = r.val →
    (∀ args : List Byte, args.length = 12 → (∃ x ∈ args, x ≠ 0 ∧ x ≠ 1) →
      exec (.noticeMask b tag args) s = .next (s.answer ⟨tag, b, .badRecord, 20, []⟩).startUplink) ∧
    ∀ m : NoticeMask,
      exec (.noticeMask b tag
        ([m.offer, m.offerTimeout, m.cueTimeout, m.songStarted, m.paused, m.resumed, m.keyChanged, m.result,
          m.queueChanged, m.handsetChanged, m.lyricSkipped, m.videoStale].map
            fun f => if f then 1 else 0)) s =
        .next ((s.setRoom r { s.room r with mask := { m with offer := true } }).answer
          ⟨tag, b, if m.offer then .ok else .okClamped, 20, []⟩).startUplink

/-- BAND_TABLE of 1 to 12 entries, each of eight bytes as 11.2 lays them out, puts its table, clamped, in the
pending slot, the mask values 16 and above ignored; another number of entries or of bytes, or a kind or alignment
that names no value, is refused BAD_RECORD (R65, R66, R179). PALETTE replaces the palette at once, and one that
does not carry ten colours is refused BAD_RECORD (R68). A refused one of either changes nothing. -/
def Obligations.BandTableAndPaletteWritten : Prop :=
  ∀ (s : State) (b tag : Byte) (r : RoomId) (args : List Byte) (byte two : Nat → Nat),
    s.takesCells = true → b.toNat = r.val →
    byte = (fun i => (args.getD i 0).toNat) → two = (fun i => 256 * byte i + byte (i + 1)) →
    (args.length ≠ 1 + 8 * byte 0 ∨ byte 0 = 0 ∨ 12 < byte 0 ∨
        (∃ k < byte 0, 5 < byte (8 * k + 3) ∨ 2 < byte (8 * k + 5)) →
      exec (.bandTable b tag args) s = .next (s.answer ⟨tag, b, .badRecord, 32, []⟩).startUplink) ∧
    (∀ bs cs : List Band, args.length = 1 + 8 * byte 0 → 1 ≤ byte 0 → byte 0 ≤ 12 →
      (∀ k < byte 0, byte (8 * k + 3) ≤ 5 ∧ byte (8 * k + 5) ≤ 2) →
      bs = (List.range (byte 0)).map (fun k =>
        { height := two (8 * k + 1)
          kind := match byte (8 * k + 3) with
            | 0 => .video | 1 => .lyricUpper | 2 => .lyricLower | 3 => .score | 4 => .queue | _ => .blank
          dim := byte (8 * k + 4)
          alignment := match byte (8 * k + 5) with | 0 => .left | 1 => .center | _ => .right
          margin := two (8 * k + 6)
          mask :=
            { attract := byte (8 * k + 8) % 2 = 1, cueing := byte (8 * k + 8) / 2 % 2 = 1
              playing := byte (8 * k + 8) / 4 % 2 = 1, result := byte (8 * k + 8) / 8 % 2 = 1 } }) →
      cs = bs.map (fun x =>
        { x with height := max 1 (min 720 x.height), dim := min 7 x.dim, margin := min 320 x.margin }) →
      exec (.bandTable b tag args) s = .next
        ((s.setRoom r
          { s.room r with compositor := { (s.room r).compositor with slot := some cs } }).answer
            ⟨tag, b, if cs = bs then .ok else .okClamped, 32, []⟩).startUplink) ∧
    (args.length ≠ 30 →
      exec (.palette b tag args) s = .next (s.answer ⟨tag, b, .badRecord, 33, []⟩).startUplink) ∧
    ∀ c : Nat → Colour, args = (List.range 10).flatMap (fun k => [(c k).y, (c k).cb, (c k).cr]) →
      exec (.palette b tag args) s = .next
        ((s.setRoom r
          { s.room r with compositor := { (s.room r).compositor with
              palette := ⟨⟨c 0, c 1, c 2⟩, ⟨c 3, c 4, c 5⟩, ⟨c 6, c 7, c 8⟩, c 9⟩ } }).answer
            ⟨tag, b, .ok, 33, []⟩).startUplink

/-- GLYPH_LOAD of a code within 0..1023 and a width within 4..48, with the bytes of exactly 40 × width pixels,
four to a byte and the first in its two most significant bits (11.2), writes its pixels from the fill pointer on,
points its code's entry at them and moves the pointer past them, every other cell and entry staying; it is refused
NO_SPACE when the store has too few cells left and BAD_RECORD when it is another, and then changes nothing (R40 to
R42).

GLYPH_CLEAR is refused BUSY while any room holds a line in SHOWN, SINGING or DONE, and otherwise makes every code
ABSENT, clears the store and sets the fill pointer to 0 (R43). -/
def Obligations.GlyphStoreFillsAndClears : Prop :=
  (∀ (s : State) (tag : Byte) (args : List Byte) (byte : Nat → Nat) (code width : Nat), s.takesCells = true →
    byte = (fun i => (args.getD i 0).toNat) → code = 256 * byte 0 + byte 1 → width = byte 2 →
    (1023 < code ∨ width < 4 ∨ 48 < width ∨ args.length ≠ 3 + 10 * width →
      exec (.glyphLoad 15 tag args) s = .next (s.answer ⟨tag, 15, .badRecord, 34, []⟩).startUplink) ∧
    (code ≤ 1023 → 4 ≤ width → width ≤ 48 → args.length = 3 + 10 * width →
      (1310720 < s.glyphs.fill + 40 * width →
        exec (.glyphLoad 15 tag args) s = .next (s.answer ⟨tag, 15, .noSpace, 34, []⟩).startUplink) ∧
      (s.glyphs.fill + 40 * width ≤ 1310720 →
        ∃ g : GlyphStore,
          exec (.glyphLoad 15 tag args) s =
            .next (({ s with glyphs := g }).answer ⟨tag, 15, .ok, 34, []⟩).startUplink ∧
          g.fill = s.glyphs.fill + 40 * width ∧
          g.entry code = some ⟨s.glyphs.fill, width⟩ ∧
          (∀ other, other ≠ code → g.entry other = s.glyphs.entry other) ∧
          (∀ i < 40 * width, (memRead clearCell g.cells (s.glyphs.fill + i)).toNat =
            byte (3 + i / 4) / 4 ^ (3 - i % 4) % 4) ∧
          ∀ a, a < s.glyphs.fill ∨ s.glyphs.fill + 40 * width ≤ a →
            memRead clearCell g.cells a = memRead clearCell s.glyphs.cells a))) ∧
  ∀ (s : State) (tag : Byte), s.takesCells = true →
    ((∃ r : RoomId, ∃ l ∈ (s.room r).lyrics.lines, l.state ≠ .loaded) →
      exec (.glyphClear 15 tag []) s = .next (s.answer ⟨tag, 15, .busy, 35, []⟩).startUplink) ∧
    ((∀ r : RoomId, ∀ l ∈ (s.room r).lyrics.lines, l.state = .loaded) →
      exec (.glyphClear 15 tag []) s =
        .next (({ s with glyphs := ⟨[], [], 0⟩ }).answer ⟨tag, 15, .ok, 35, []⟩).startUplink)

/-- PITCH_CELLS is refused BUSY while any room has a song open, then BAD_TABLE unless it carries 45 pairs
within 1..4095, each low at most its high and each next high one less than the low before it; otherwise the
table becomes LOADED with them (R107, R108). -/
def Obligations.PitchCellsLoaded : Prop :=
  ∀ (s : State) (tag : Byte) (args : List Byte), s.takesCells = true →
    ((∃ r : RoomId, (s.room r).phase.songOpen = true) →
      exec (.pitchCells 15 tag args) s = .next (s.answer ⟨tag, 15, .busy, 48, []⟩).startUplink) ∧
    ((∀ r : RoomId, (s.room r).phase.songOpen = false) →
      (args.length ≠ 180 →
        exec (.pitchCells 15 tag args) s = .next (s.answer ⟨tag, 15, .badTable, 48, []⟩).startUplink) ∧
      ∀ cells : List PitchCell, cells.length = 45 →
        args = cells.flatMap (fun c => be2 c.low ++ be2 c.high) →
        (∀ c ∈ cells, c.low ≤ 65535 ∧ c.high ≤ 65535) →
        ((∀ c ∈ cells, 1 ≤ c.low ∧ c.low ≤ c.high ∧ c.high ≤ 4095) →
          (∀ i < 44, (cells.getD (i + 1) ⟨0, 0⟩).high + 1 = (cells.getD i ⟨0, 0⟩).low) →
          exec (.pitchCells 15 tag args) s =
            .next (({ s with engine := { s.engine with table := some cells } }).answer
              ⟨tag, 15, .ok, 48, []⟩).startUplink) ∧
        ((∃ c ∈ cells, ¬(1 ≤ c.low ∧ c.low ≤ c.high ∧ c.high ≤ 4095)) ∨
            (∃ i < 44, (cells.getD (i + 1) ⟨0, 0⟩).high + 1 ≠ (cells.getD i ⟨0, 0⟩).low) →
          exec (.pitchCells 15 tag args) s =
            .next (s.answer ⟨tag, 15, .badTable, 48, []⟩).startUplink))

/-! ## Songs: lines, notes, opening, starting, holding and ending -/

/-- LYRIC_LINE is refused BUSY with no song open, BAD_RECORD when malformed, LOCKED when its id names a line on
its row, ORDER when it starts before the last-loaded start or the list's last line (as a replacement, before the
line it follows or after the line it precedes), NO_SPACE past a limit; else the line, its durations held within
it, joins the list or replaces the LOADED one of its id, and in PLAYING the lines are evaluated (R45 to R49, R52).
The line is read at the offsets of 11.2. It is well formed when its row is 0 or 1, its part A, B or BOTH, its
start below its end and that at most 1,803,000, it has 1 to 48 glyph codes of at most 1,023 and 1 to 24 syllables,
its length is that of these counts, the syllables partition the glyphs in order, and their onsets do not fall and
lie from its start to below its end (R45, R179). -/
def Obligations.LyricLineLoaded : Prop :=
  ∀ (s : State) (b tag : Byte) (r : RoomId) (args : List Byte) (byte two four : Nat → Nat)
      (n k start stop : Nat) (first count onset : Nat → Nat) (wellFormed : Prop),
    s.takesCells = true → b.toNat = r.val →
    byte = (fun i => (args.getD i 0).toNat) → two = (fun i => 256 * byte i + byte (i + 1)) →
    four = (fun i => 65536 * two i + two (i + 2)) → start = four 4 → stop = four 8 → n = byte 12 → k = byte 13 →
    -- the syllables' fields
    first = (fun i => byte (14 + 2 * n + 8 * i)) → count = (fun i => byte (15 + 2 * n + 8 * i)) →
    onset = (fun i => four (16 + 2 * n + 8 * i)) →
    (wellFormed ↔ args.length = 14 + 2 * n + 8 * k ∧ byte 2 ≤ 1 ∧ 1 ≤ byte 3 ∧ byte 3 ≤ 3 ∧ start < stop ∧
      stop ≤ 1803000 ∧ 1 ≤ n ∧ n ≤ 48 ∧ (∀ i < n, two (14 + 2 * i) ≤ 1023) ∧ 1 ≤ k ∧ k ≤ 24 ∧
      first 0 = 0 ∧ (∀ i < k, 1 ≤ count i) ∧ (∀ i, i + 1 < k → first (i + 1) = first i + count i) ∧
      first (k - 1) + count (k - 1) = n ∧
      (∀ i < k, start ≤ onset i ∧ onset i < stop) ∧ ∀ i, i + 1 < k → onset i ≤ onset (i + 1)) →
    ((s.room r).phase.songOpen = false →
      exec (.lyricLine b tag args) s = .next (s.answer ⟨tag, b, .busy, 49, []⟩).startUplink) ∧
    ((s.room r).phase.songOpen = true → ¬wellFormed →
      exec (.lyricLine b tag args) s = .next (s.answer ⟨tag, b, .badRecord, 49, []⟩).startUplink) ∧
    ∀ l l' : Line, (s.room r).phase.songOpen = true → wellFormed →
      l = { id := two 0, row := if byte 2 = 0 then 0 else 1
            part := if byte 3 = 1 then .a else if byte 3 = 2 then .b else .both
            start := start, stop := stop, glyphs := (List.range n).map fun i => two (14 + 2 * i)
            syllables := (List.range k).map fun i =>
              ⟨first i, count i, onset i, two (20 + 2 * n + 8 * i)⟩
            state := .loaded } →
      l' = { l with syllables := l.syllables.map fun y =>
        { y with duration := min y.duration (l.stop - y.onset) } } →
      -- a new line
      ((s.room r).lyrics.lines.find? (fun x => x.id = l.id) = none →
        exec (.lyricLine b tag args) s = .next
          (if (s.room r).lyrics.lastLoaded.any (l.start < ·.start) = true ∨
              (s.room r).lyrics.lines.getLast?.any (l.start < ·.start) = true then
            s.answer ⟨tag, b, .order, 49, []⟩
          else if (s.room r).lyrics.lines.length < 48 ∧ s.linesUsed < 96 ∧
              (s.room r).lyrics.syllableCount + l.syllables.length ≤ 512 ∧
              s.syllablesUsed + l.syllables.length ≤ 1024 then
            ((fun u : State => if (s.room r).phase = .playing then u.evaluate r else u)
              (s.setRoom r { s.room r with lyrics :=
                { (s.room r).lyrics with
                  lines := (s.room r).lyrics.lines ++ [l']
                  lastLoaded := some ⟨l.id, l.start⟩ } })).answer
              ⟨tag, b, if l' = l then .ok else .okClamped, 49, []⟩
          else s.answer ⟨tag, b, .noSpace, 49, []⟩).startUplink) ∧
      -- a line of an id that is held
      ∀ (before after : List Line) (old : Line), (s.room r).lyrics.lines = before ++ old :: after →
        (∀ x ∈ before, x.id ≠ l.id) → old.id = l.id →
        exec (.lyricLine b tag args) s = .next
          (if old.state ≠ .loaded then s.answer ⟨tag, b, .locked, 49, []⟩
          else if before.getLast?.any (l.start < ·.start) = true ∨ after.head?.any (·.start < l.start) = true then
            s.answer ⟨tag, b, .order, 49, []⟩
          else if (s.room r).lyrics.syllableCount + l.syllables.length ≤ 512 + old.syllables.length ∧
              s.syllablesUsed + l.syllables.length ≤ 1024 + old.syllables.length then
            ((fun u : State => if (s.room r).phase = .playing then u.evaluate r else u)
              (s.setRoom r { s.room r with lyrics :=
                { (s.room r).lyrics with
                  lines := (s.room r).lyrics.lines.map fun x => if x.id = l.id then l' else x
                  lastLoaded := (s.room r).lyrics.lastLoaded.map fun z =>
                    if z.id = l.id then ⟨z.id, l.start⟩ else z } })).answer
              ⟨tag, b, if l' = l then .ok else .okClamped, 49, []⟩
          else s.answer ⟨tag, b, .noSpace, 49, []⟩).startUplink

/-- NOTE_EVENTS is refused BUSY with no song open, BAD_RECORD when malformed, ORDER when an event starts before
the start of the one loaded before it or before the last end of a singer of its part, NO_SPACE past a limit; else
its notes join the list in order, unseen, each with the ends its singers had before it and its onsets PENDING for
the channels of its part, and the last start and the last ends of singers A and B are moved on (R113 to R115). A
cell is well formed with 1 to 16 events of ten bytes at the offsets of 11.2, each with its start below its end,
that at most 1,803,000, a note of at most 127 and a part A, B or BOTH; a note belongs to a channel whose part is A
when it is of part A or BOTH, to one whose part is B when it is of part B or BOTH, and to none whose part is NONE.
-/
def Obligations.NoteEventsLoaded : Prop :=
  ∀ (s : State) (b tag : Byte) (r : RoomId) (args : List Byte) (byte four : Nat → Nat)
      (wellFormed : Prop),
    s.takesCells = true → b.toNat = r.val → byte = (fun i => (args.getD i 0).toNat) →
    four = (fun i => 16777216 * byte i + 65536 * byte (i + 1) + 256 * byte (i + 2) + byte (i + 3)) →
    (wellFormed ↔ args.length = 1 + 10 * byte 0 ∧ 1 ≤ byte 0 ∧ byte 0 ≤ 16 ∧
      ∀ k < byte 0, four (10 * k + 1) < four (10 * k + 5) ∧ four (10 * k + 5) ≤ 1803000 ∧
        byte (10 * k + 9) ≤ 127 ∧ 1 ≤ byte (10 * k + 10) ∧ byte (10 * k + 10) ≤ 3) →
    ((s.room r).phase.songOpen = false →
      exec (.noteEvents b tag args) s = .next (s.answer ⟨tag, b, .busy, 50, []⟩).startUplink) ∧
    ((s.room r).phase.songOpen = true → ¬wellFormed →
      exec (.noteEvents b tag args) s = .next (s.answer ⟨tag, b, .badRecord, 50, []⟩).startUplink) ∧
    ∀ (es : List NoteEvent) (y : Melody) (lastStart lastEndA lastEndB : List NoteEvent → Option Nat)
      (late : List NoteEvent → NoteEvent → Bool) (first : Part → MicPart → Onset),
      (s.room r).phase.songOpen = true → wellFormed → y = (s.room r).melody →
      es = (List.range (byte 0)).map (fun k =>
        { start := four (10 * k + 1), stop := four (10 * k + 5), number := byte (10 * k + 9)
          part := if byte (10 * k + 10) = 1 then .a else if byte (10 * k + 10) = 2 then .b else .both }) →
      -- the three records once some events of the cell have been taken
      lastStart = (fun es => (es.getLast?.map (·.start)).or y.lastStart) →
      lastEndA = (fun es => ((es.filter (·.part ≠ .b)).getLast?.map (·.stop)).or y.lastEndA) →
      lastEndB = (fun es => ((es.filter (·.part ≠ .a)).getLast?.map (·.stop)).or y.lastEndB) →
      -- an event fails the order check behind those before it
      late = (fun before e => (lastStart before).any (e.start < ·) ||
        (e.part ≠ .b && (lastEndA before).any (e.start < ·)) ||
        (e.part ≠ .a && (lastEndB before).any (e.start < ·))) →
      first = (fun p m => match m with
        | .none => .notApplicable
        | .a => if p = .a ∨ p = .both then .pending else .notApplicable
        | .b => if p = .b ∨ p = .both then .pending else .notApplicable) →
      ((∃ before e after, es = before ++ e :: after ∧ late before e = true) →
        exec (.noteEvents b tag args) s = .next (s.answer ⟨tag, b, .order, 50, []⟩).startUplink) ∧
      ((∀ before e after, es = before ++ e :: after → late before e = false) →
        exec (.noteEvents b tag args) s = .next
          (if y.notes.length + es.length ≤ 256 ∧ s.notesUsed + es.length ≤ 1024 then
            (s.setRoom r { s.room r with melody :=
              { notes := y.notes ++ es.zipIdx.map fun x =>
                  { start := x.1.start, stop := x.1.stop, number := x.1.number, part := x.1.part
                    previousEndA := lastEndA (es.take x.2), previousEndB := lastEndB (es.take x.2)
                    seen := ⟨false, false⟩
                    onset := ⟨first x.1.part (s.room r).settings.micParts.one,
                      first x.1.part (s.room r).settings.micParts.two⟩ }
                lastStart := lastStart es, lastEndA := lastEndA es, lastEndB := lastEndB es } }).answer
              ⟨tag, b, .ok, 50, []⟩
          else s.answer ⟨tag, b, .noSpace, 50, []⟩).startUplink)

/-- SONG_OPEN is refused BUSY in DARK, then BAD_RECORD for a song length of 0, then STALE when the room is not
ATTRACT or its ticket is not that of a head OFFERED or lapsed; else the head is LOADING, the room CUEING with its
cue timer running, and the song's timeline, lines, notes, singers and result begin anew, the length and a tempo
other than 0 clamped (R22, R26, R159, R160; clock changes not yet taken are dropped, log entry 7). -/
def Obligations.SongOpenCues : Prop :=
  ∀ (s : State) (b tag : Byte) (r : RoomId) (args : List Byte), s.takesCells = true → b.toNat = r.val →
    args.length = 6 →
    ((s.room r).phase = .dark →
      exec (.songOpen b tag args) s = .next (s.answer ⟨tag, b, .busy, 64, []⟩).startUplink) ∧
    ((s.room r).phase ≠ .dark → u32 args 1 = 0 →
      exec (.songOpen b tag args) s = .next (s.answer ⟨tag, b, .badRecord, 64, []⟩).startUplink) ∧
    ((s.room r).phase ≠ .dark → u32 args 1 ≠ 0 →
      (s.room r).phase ≠ .attract ∨
        (∀ e, (s.room r).queue.entries.head? = some e → e.ticket ≠ u8 args 0 ∨
          (e.state ≠ .offered ∧ (e.state ≠ .queued ∨ (s.room r).queue.lapsed ≠ some e.ticket))) →
      exec (.songOpen b tag args) s = .next (s.answer ⟨tag, b, .stale, 64, []⟩).startUplink) ∧
    ∀ (e : Entry) (es : List Entry), (s.room r).phase = .attract → u32 args 1 ≠ 0 →
      (s.room r).queue.entries = e :: es → e.ticket = u8 args 0 →
      (e.state = .offered ∨ (e.state = .queued ∧ (s.room r).queue.lapsed = some e.ticket)) →
      exec (.songOpen b tag args) s = .next
        (({ s.setRoom r
            { s.room r with
              phase := .cueing
              cueTimer := .running (1000 * (s.room r).settings.cueTimeout)
              timeline := { (s.room r).timeline with
                clock := 0, accumulator := 0, catchUp := 0, hold := 0, keyStamp := 0
                songLength := some (min 1800000 (u32 args 1))
                keyOffset := e.preset.getD 0
                tempo := if u8 args 5 = 0 then (s.room r).settings.defaultTempo
                  else max 80 (min 120 (u8 args 5)) }
              lyrics := { (s.room r).lyrics with lines := [], lastLoaded := none }
              melody := ⟨[], none, none, none⟩
              singers := ⟨Singer.start, Singer.start⟩
              mics := (s.room r).mics.both fun c => { c with dropped := 0 }
              result := none
              queue := { (s.room r).queue with
                entries := { e with state := .loading } :: es
                offerTimer := .stopped, suspended := false, lapsed := none } } with
          handed := s.withoutClockChanges r }).answer
            ⟨tag, b,
              if u32 args 1 ≤ 1800000 ∧ (u8 args 5 = 0 ∨ (80 ≤ u8 args 5 ∧ u8 args 5 ≤ 120)) then .ok
              else .okClamped, 64, []⟩).startUplink

/-- SONG_REFUSE of the head's ticket, while the head is QUEUED or OFFERED, removes it with REFUSED_BY_SERVER news
to its owner and is a queue change, whatever its reason byte; any other is answered STALE (R151, R161). That its
owner's news stands before the NEXT_UP of the head then offered is the model's choice (log entry 12). -/
def Obligations.SongRefuseRemovesTheHead : Prop :=
  ∀ (s : State) (b tag ticket reason : Byte) (r : RoomId), s.takesCells = true → b.toNat = r.val →
    (∀ (e : Entry) (es : List Entry), (s.room r).queue.entries = e :: es → e.ticket = ticket.toNat →
      (e.state = .queued ∨ e.state = .offered) → (∀ x ∈ es, x.ticket ≠ e.ticket) →
      exec (.songRefuse b tag [ticket, reason]) s = .next
        ((({ s.setRoom r
            { s.room r with
              queue := (s.room r).queue.afterHead e es
              line := (s.room r).line.placeNews e.owner ⟨.refusedByServer, e.ticket⟩ } with
          link := s.link.hear (s.room r).mask r .queueChanged }).offerTrigger r).answer
            ⟨tag, b, .ok, 65, []⟩).startUplink) ∧
    ((∀ (e : Entry), (s.room r).queue.entries.head? = some e →
        e.ticket = ticket.toNat → e.state = .loading ∨ e.state = .playing) →
      exec (.songRefuse b tag [ticket, reason]) s =
        .next (s.answer ⟨tag, b, .stale, 65, []⟩).startUplink)

/-- SONG_START for a CUEING room sets the clock to its position, held at the song length, and puts the room in
PLAYING: the cue timer stopped, the mark timer running, the head PLAYING with NOW_PLAYING news, SONG_STARTED
raised, the lines evaluated, and the clock change handed to the room controller and the score unit; in any
other state it is refused BUSY (R7, R28; the evaluation within the command is log entry 9, and that SONG_STARTED enters
before its LYRIC_SKIPPED is log entry 12). -/
def Obligations.SongStartPlays : Prop :=
  ∀ (s : State) (b tag : Byte) (r : RoomId) (args : List Byte), s.takesCells = true → b.toNat = r.val →
    args.length = 4 →
    ((s.room r).phase ≠ .cueing →
      exec (.songStart b tag args) s = .next (s.answer ⟨tag, b, .busy, 66, []⟩).startUplink) ∧
    ∀ (e : Entry) (es : List Entry) (len : Nat), (s.room r).phase = .cueing →
      (s.room r).queue.entries = e :: es → (s.room r).timeline.songLength = some len →
      exec (.songStart b tag args) s = .next
        ((((({ s.setRoom r
            { s.room r with
              phase := .playing
              timeline := { (s.room r).timeline with clock := min (u32 args 0) len }
              cueTimer := .stopped
              markTimer := .running (s.room r).settings.markTimeout
              queue := { (s.room r).queue with entries := { e with state := .playing } :: es }
              line := (s.room r).line.placeNews e.owner ⟨.nowPlaying, e.ticket⟩ } with
          link := s.link.hear (s.room r).mask r .songStarted }).evaluate r).hand
            (.toGuard r (min (u32 args 0) len))).hand (.toScore r (min (u32 args 0) len))).answer
              ⟨tag, b, if u32 args 0 ≤ len then .ok else .okClamped, 66, []⟩).startUplink

/-- The room and the link after a song end: RESULT with its hold timer running, the mark timer stopped, the
reasons empty, a running video-stale timer suspended with its remaining time kept, the result record made COMPLETE
with the head's ticket and song, the head removed by a queue change, the rings clear and RESULT raised; a running
analysis of the room is void (R11, R15, R98, R162). SONG_END does it in PLAYING and PAUSED and is refused BUSY
elsewhere; a clock change, the oldest handed on to the room's end guard, does it when it reaches the song length
plus 3,000, and short of that, or taken with no song running, ends nothing. That QUEUE_CHANGED enters before
RESULT is the model's choice (log entry 12). The singer entries carry the part, the counters and the dropped
analyses as they stand, and the scores P, T and F, each within 0..1000, or 0 with NOT_SCORED for a part NONE or a
G of 0 (R126 to R128); the live score is P (R127). -/
def Obligations.SongEndMakesTheResult : Prop :=
  (∀ (s : State) (r : RoomId) (e : Entry) (es : List Entry),
    ((s.room r).phase = .playing ∨ (s.room r).phase = .paused) →
    (s.room r).queue.entries = e :: es → (∀ x ∈ es, x.ticket ≠ e.ticket) →
    ∀ u : State,
      u = { s.setRoom r
            { (s.room r).hushed with
              phase := .result, reasons := ⟨false, false⟩, markTimer := .stopped
              holdTimer := .running (1000 * (s.room r).settings.resultHold)
              staleTimer := match (s.room r).staleTimer with
                | .running k => .suspended k
                | .suspended k => .suspended k
                | .stopped => .stopped
              result := some ⟨e.ticket, e.song, .complete,
                ⟨(s.room r).singerEntry .mic1, (s.room r).singerEntry .mic2⟩⟩
              queue := (s.room r).queue.afterHead e es } with
          engine := s.engine.voided r
          link := (s.link.hear (s.room r).mask r .queueChanged).hear (s.room r).mask r .result } →
      (∀ b tag : Byte, s.takesCells = true → b.toNat = r.val →
        exec (.songEnd b tag []) s = .next (u.answer ⟨tag, b, .ok, 67, []⟩).startUplink) ∧
      ∀ (len t : Nat) (before rest : List HandOver), (s.room r).timeline.songLength = some len →
        len + 3000 ≤ t → (∀ x, HandOver.toGuard r x ∉ before) →
        exec (.endGuard r) { s with handed := before ++ .toGuard r t :: rest } =
          .next ({ u with handed := before ++ rest }).startUplink) ∧
  (∀ (s : State) (b tag : Byte) (r : RoomId), s.takesCells = true → b.toNat = r.val →
    ((s.room r).phase = .dark ∨ (s.room r).phase = .attract ∨ (s.room r).phase = .cueing ∨
      (s.room r).phase = .result) →
    exec (.songEnd b tag []) s = .next (s.answer ⟨tag, b, .busy, 67, []⟩).startUplink) ∧
  (∀ (s : State) (r : RoomId) (t : Nat) (before rest : List HandOver),
    (∀ x, HandOver.toGuard r x ∉ before) →
    ((s.room r).phase ≠ .playing ∧ (s.room r).phase ≠ .paused ∨
      (s.room r).timeline.songLength.all (fun len => t < len + 3000)) →
    exec (.endGuard r) { s with handed := before ++ .toGuard r t :: rest } =
      .next ({ s with handed := before ++ rest }).startUplink) ∧
  ∀ (rm : Room) (m : Mic) (x : Singer) (part : MicPart) (p t f : Nat), x = rm.singers.get m →
    part = rm.settings.micParts.get m → p = 1000 * (4 * x.hit + 2 * x.near) / (4 * x.graded) →
    t = (if x.judged = 0 then p else 1000 * x.good / x.judged) → f = (7 * p + 3 * t + 5) / 10 →
    rm.singerEntry m =
      (if part = .none ∨ x.graded = 0 then
        { part := part, notScored := true, pitch := 0, timing := 0, final := 0
          counts := { x with runStart := none }, dropped := (rm.mics.get m).dropped }
      else
        { part := part, notScored := false, pitch := p, timing := t, final := f
          counts := { x with runStart := none }, dropped := (rm.mics.get m).dropped }) ∧
    x.live = (if x.graded = 0 then none else some p) ∧
    (x.CountsAgree → p ≤ 1000 ∧ t ≤ 1000 ∧ f ≤ 1000)

/-- PAUSE holds a PLAYING room by STAFF: PAUSED, the mark timer stopped, the rings clear, PAUSED raised; it
adds STAFF to a PAUSED room's reasons without a notice; elsewhere it is refused BUSY (R9, with R98). -/
def Obligations.PauseHoldsTheRoom : Prop :=
  ∀ (s : State) (b tag : Byte) (r : RoomId), s.takesCells = true → b.toNat = r.val →
    ((s.room r).phase = .playing →
      exec (.pause b tag []) s = .next
        (({ s.setRoom r
            { (s.room r).hushed with
              phase := .paused, reasons := ⟨false, true⟩, markTimer := .stopped } with
          engine := s.engine.voided r
          link := s.link.hear (s.room r).mask r .paused }).answer ⟨tag, b, .ok, 68, []⟩).startUplink) ∧
    ((s.room r).phase = .paused →
      exec (.pause b tag []) s = .next
        ((s.setRoom r { s.room r with reasons := ⟨(s.room r).reasons.stall, true⟩ }).answer
          ⟨tag, b, .ok, 68, []⟩).startUplink) ∧
    ((s.room r).phase = .dark ∨ (s.room r).phase = .attract ∨ (s.room r).phase = .cueing ∨
        (s.room r).phase = .result →
      exec (.pause b tag []) s = .next (s.answer ⟨tag, b, .busy, 68, []⟩).startUplink)

/-- RESUME removes STAFF from a PAUSED room's reasons; with no reason left the room is PLAYING again, its mark
timer started and RESUMED raised. In PLAYING, or with STAFF absent, it changes nothing; elsewhere it is
refused BUSY (R10). -/
def Obligations.ResumeReleasesStaff : Prop :=
  ∀ (s : State) (b tag : Byte) (r : RoomId), s.takesCells = true → b.toNat = r.val →
    ((s.room r).phase = .paused → (s.room r).reasons = ⟨false, true⟩ →
      exec (.resume b tag []) s = .next
        (({ s.setRoom r
            { s.room r with
              phase := .playing, reasons := ⟨false, false⟩
              markTimer := .running (s.room r).settings.markTimeout } with
          link := s.link.hear (s.room r).mask r .resumed }).answer ⟨tag, b, .ok, 69, []⟩).startUplink) ∧
    ((s.room r).phase = .paused → (s.room r).reasons = ⟨true, true⟩ →
      exec (.resume b tag []) s = .next
        ((s.setRoom r { s.room r with reasons := ⟨true, false⟩ }).answer
          ⟨tag, b, .ok, 69, []⟩).startUplink) ∧
    ((s.room r).phase = .playing ∨ ((s.room r).phase = .paused ∧ (s.room r).reasons.staff = false) →
      exec (.resume b tag []) s = .next (s.answer ⟨tag, b, .ok, 69, []⟩).startUplink) ∧
    ((s.room r).phase = .dark ∨ (s.room r).phase = .attract ∨ (s.room r).phase = .cueing ∨
        (s.room r).phase = .result →
      exec (.resume b tag []) s = .next (s.answer ⟨tag, b, .busy, 69, []⟩).startUplink)

/-- SKIP aborts the open song: ATTRACT, timers stopped, reasons empty, the result record ABORTED with the
counters as they stand, the head removed by a queue change, RESULT raised, lines and notes returned, rings
clear, and then an offer trigger; with no song open it is refused BUSY (R13, R98, R162). That QUEUE_CHANGED enters
before RESULT is the model's choice (log entry 12). -/
def Obligations.SkipAbortsTheSong : Prop :=
  ∀ (s : State) (b tag : Byte) (r : RoomId), s.takesCells = true → b.toNat = r.val →
    ((s.room r).phase = .dark ∨ (s.room r).phase = .attract ∨ (s.room r).phase = .result →
      exec (.skip b tag []) s = .next (s.answer ⟨tag, b, .busy, 70, []⟩).startUplink) ∧
    ∀ (e : Entry) (es : List Entry), (s.room r).phase.songOpen = true →
      (s.room r).queue.entries = e :: es → (∀ x ∈ es, x.ticket ≠ e.ticket) →
      exec (.skip b tag []) s = .next
        ((({ s.setRoom r
            { (s.room r).hushed with
              phase := .attract, reasons := ⟨false, false⟩, markTimer := .stopped, cueTimer := .stopped
              result := some ⟨e.ticket, e.song, .aborted,
                ⟨(s.room r).singerEntry .mic1, (s.room r).singerEntry .mic2⟩⟩
              lyrics := { (s.room r).lyrics with lines := [], lastLoaded := none }
              melody := ⟨[], none, none, none⟩
              queue := (s.room r).queue.afterHead e es } with
          engine := s.engine.voided r
          link := (s.link.hear (s.room r).mask r .queueChanged).hear (s.room r).mask r
            .result }).offerTrigger r).answer ⟨tag, b, .ok, 70, []⟩).startUplink

/-- SET_TEMPO sets the tempo of a room with a song open, held within 80..120 and answered OK_CLAMPED when it
lay outside; in DARK, ATTRACT and RESULT it is refused BUSY (R27). -/
def Obligations.SetTempoWithASongOpen : Prop :=
  ∀ (s : State) (b tag tempo : Byte) (r : RoomId), s.takesCells = true → b.toNat = r.val →
    ((s.room r).phase = .cueing ∨ (s.room r).phase = .playing ∨ (s.room r).phase = .paused →
      exec (.setTempo b tag [tempo]) s = .next
        ((s.setRoom r { s.room r with timeline := { (s.room r).timeline with
            tempo := max 80 (min 120 tempo.toNat) } }).answer
          ⟨tag, b, if 80 ≤ tempo.toNat ∧ tempo.toNat ≤ 120 then .ok else .okClamped, 71,
            []⟩).startUplink) ∧
    ((s.room r).phase = .dark ∨ (s.room r).phase = .attract ∨ (s.room r).phase = .result →
      exec (.setTempo b tag [tempo]) s = .next (s.answer ⟨tag, b, .busy, 71, []⟩).startUplink)

/-! ## The queue -/

/-- An offer trigger makes an offer of a QUEUED head in ATTRACT while offers are not suspended: OFFERED, the
offer timer started, NEXT_UP news placed, OFFER raised; otherwise it does nothing (R156). OFFER_POLL lifts the
suspension and is a trigger, or raises OFFER again for a head that is OFFERED already (R158). -/
def Obligations.OfferPollOffersTheHead : Prop :=
  ∀ (s : State) (r : RoomId),
    (∀ (e : Entry) (es : List Entry), (s.room r).phase = .attract →
      (s.room r).queue.suspended = false → (s.room r).queue.entries = e :: es → e.state = .queued →
      s.offerTrigger r =
        { s.setRoom r
            { s.room r with
              queue := { (s.room r).queue with
                entries := { e with state := .offered } :: es
                offerTimer := .running (1000 * (s.room r).settings.offerTimeout) }
              line := (s.room r).line.placeNews e.owner ⟨.nextUp, e.ticket⟩ } with
          link := s.link.hear (s.room r).mask r .offer }) ∧
    ((s.room r).phase ≠ .attract ∨ (s.room r).queue.suspended = true ∨
        (∀ e ∈ (s.room r).queue.entries.head?, e.state ≠ .queued) →
      s.offerTrigger r = s) ∧
    ∀ b tag : Byte, s.takesCells = true → b.toNat = r.val →
      ∀ u : State, u = s.setRoom r
          { s.room r with queue := { (s.room r).queue with suspended := false } } →
        ((s.room r).phase = .attract → (s.room r).queue.headIs .offered = true →
          exec (.offerPoll b tag []) s = .next
            (({ u with link := s.link.hear (s.room r).mask r .offer }).answer
              ⟨tag, b, .ok, 80, []⟩).startUplink) ∧
        ((s.room r).phase ≠ .attract ∨ (s.room r).queue.headIs .offered = false →
          exec (.offerPoll b tag []) s = .next
            ((u.offerTrigger r).answer ⟨tag, b, .ok, 80, []⟩).startUplink)

/-- QUEUE_REMOVE of a ticket that no entry holds is answered STALE; of a QUEUED or OFFERED entry it removes the
entry with CANCELLED news to its owner and is a queue change; of the LOADING or PLAYING head it is SKIP with that
news (R152, R153). That QUEUE_CHANGED enters before RESULT at such an abort is the model's choice (log entry 12).
That the removed entry's news stands before the NEXT_UP of the head then offered is the model's choice (log entry
12). -/
def Obligations.QueueRemoveCancelsAnEntry : Prop :=
  ∀ (s : State) (b tag ticket : Byte) (r : RoomId), s.takesCells = true → b.toNat = r.val →
    ((∀ x ∈ (s.room r).queue.entries, x.ticket ≠ ticket.toNat) →
      exec (.queueRemove b tag [ticket]) s =
        .next (s.answer ⟨tag, b, .stale, 81, []⟩).startUplink) ∧
    ∀ (before after : List Entry) (e : Entry), (s.room r).queue.entries = before ++ e :: after →
      e.ticket = ticket.toNat → (∀ x ∈ before ++ after, x.ticket ≠ e.ticket) →
      (e.state = .queued ∨ e.state = .offered →
        exec (.queueRemove b tag [ticket]) s = .next
          ((({ s.setRoom r
              { s.room r with
                queue := (s.room r).queue.afterHead e (before ++ after)
                line := (s.room r).line.placeNews e.owner ⟨.cancelled, e.ticket⟩ } with
            link := s.link.hear (s.room r).mask r .queueChanged }).offerTrigger r).answer
              ⟨tag, b, .ok, 81, []⟩).startUplink) ∧
      (before = [] → e.state = .loading ∨ e.state = .playing →
        exec (.queueRemove b tag [ticket]) s = .next
          ((({ s.setRoom r
              { (s.room r).hushed with
                phase := .attract, reasons := ⟨false, false⟩, markTimer := .stopped, cueTimer := .stopped
                result := some ⟨e.ticket, e.song, .aborted,
                  ⟨(s.room r).singerEntry .mic1, (s.room r).singerEntry .mic2⟩⟩
                lyrics := { (s.room r).lyrics with lines := [], lastLoaded := none }
                melody := ⟨[], none, none, none⟩
                queue := (s.room r).queue.afterHead e after
                line := (s.room r).line.placeNews e.owner ⟨.cancelled, e.ticket⟩ } with
            engine := s.engine.voided r
            link := (s.link.hear (s.room r).mask r .queueChanged).hear (s.room r).mask r
              .result }).offerTrigger r).answer ⟨tag, b, .ok, 81, []⟩).startUplink)

/-- QUEUE_MOVE of a ticket that no entry holds is answered STALE, and of an entry past QUEUED LOCKED; else the
entry comes to stand at its target, held within the places below an active head and the end, as a queue
change unless it stood there (R154). -/
def Obligations.QueueMovePlacesAnEntry : Prop :=
  ∀ (s : State) (b tag ticket target : Byte) (r : RoomId), s.takesCells = true → b.toNat = r.val →
    ((∀ x ∈ (s.room r).queue.entries, x.ticket ≠ ticket.toNat) →
      exec (.queueMove b tag [ticket, target]) s =
        .next (s.answer ⟨tag, b, .stale, 82, []⟩).startUplink) ∧
    ∀ (before after : List Entry) (e : Entry), (s.room r).queue.entries = before ++ e :: after →
      e.ticket = ticket.toNat → (∀ x ∈ before ++ after, x.ticket ≠ e.ticket) →
      (e.state ≠ .queued →
        exec (.queueMove b tag [ticket, target]) s =
          .next (s.answer ⟨tag, b, .locked, 82, []⟩).startUplink) ∧
      ∀ low p : Nat, e.state = .queued →
        low = (if (s.room r).queue.headIs .queued then 1 else 2) →
        p = max low (min (s.room r).queue.entries.length target.toNat) →
        (p = before.length + 1 →
          exec (.queueMove b tag [ticket, target]) s = .next
            (s.answer ⟨tag, b, if p = target.toNat then .ok else .okClamped, 82, []⟩).startUplink) ∧
        (p ≠ before.length + 1 →
          exec (.queueMove b tag [ticket, target]) s = .next
            ((({ s.setRoom r
                { s.room r with queue := { (s.room r).queue with
                    entries := (before ++ after).take (p - 1) ++ e :: (before ++ after).drop (p - 1)
                    suspended := false } } with
              link := s.link.hear (s.room r).mask r .queueChanged }).offerTrigger r).answer
                ⟨tag, b, if p = target.toNat then .ok else .okClamped, 82, []⟩).startUplink)

/-! ## Time: ticks, marks, clock changes and timers -/

/-- At a tick the room's running timers lose their millisecond (that a tick does this is log entry 4). Both knob
lines are sampled: three equal newest samples of a line make their level its accepted one (R34), a change of one
line between known levels steps the detent count by the table of R35, and a count of +4 or −4 is reset and its
detent handed on (R36, log entry 6). In PLAYING the tempo joins the accumulator, the hundreds in it are advances
due, a catch-up credit adds one and a hold credit cancels some, and the clock, held at the end guard, the song
length plus 3,000, moves; a clock it changes is handed to its three readers (R23 to R25, R28). While the reset
line is asserted nothing is sampled (R20). -/
def Obligations.TimelineTickAdvancesTheClock : Prop :=
  ∀ (s : State) (r : RoomId) (a b : Bool),
    (s.link.resetLine = true → exec (.timelineTick r a b) s = .next s.startUplink) ∧
    (s.link.resetLine = false →
      ∀ (t k : Timeline) (rm : Room) (due : Nat) (elapse : Timer → Timer) (sample : KnobLine → Bool → KnobLine)
        (up : List ((Option Bool × Option Bool) × (Option Bool × Option Bool)))
        (before after : Option Bool × Option Bool) (count : Int) (made : List HandOver),
        t = (s.room r).timeline →
        elapse = (fun x => match x with | .running n => .running (n - 1) | .stopped => .stopped) →
        rm = { s.room r with
          markTimer := elapse (s.room r).markTimer, cueTimer := elapse (s.room r).cueTimer
          holdTimer := elapse (s.room r).holdTimer
          staleTimer := (match (s.room r).staleTimer with
            | .running n => .running (n - 1) | .suspended n => .suspended n | .stopped => .stopped)
          line := { (s.room r).line with slotTimer := (s.room r).line.slotTimer - 1 }
          queue := { (s.room r).queue with offerTimer := elapse (s.room r).queue.offerTimer } } →
        sample = (fun x level =>
          { samples := (level :: x.samples).take 3
            level := if (level :: x.samples).take 3 = [level, level, level] then some level else x.level }) →
        -- the transitions that step the count up; the others of R35 are the same from right to left
        up = [((some false, some false), (some true, some false)),
          ((some true, some false), (some true, some true)),
          ((some true, some true), (some false, some true)),
          ((some false, some true), (some false, some false))] →
        before = (t.knobA.level, t.knobB.level) →
        after = ((sample t.knobA a).level, (sample t.knobB b).level) →
        count = t.detents +
          (if (before, after) ∈ up then 1 else if (after, before) ∈ up then -1 else 0) →
        made = (if 4 ≤ count then [.detent r true] else if count ≤ -4 then [.detent r false] else []) →
        k = { t with
          knobA := sample t.knobA a, knobB := sample t.knobB b
          detents := if made = [] then count else 0 } →
        ((s.room r).phase ≠ .playing →
          exec (.timelineTick r a b) s = .next
            { s.setRoom r { rm with timeline := k } with handed := s.handed ++ made }.startUplink) ∧
        ((s.room r).phase = .playing → due = (t.accumulator + t.tempo) / 100 →
          ∀ (c : Nat) (n : Timeline),
            c = (match t.songLength with
              | some len => min (len + 3000) (t.clock + if 0 < t.catchUp then due + 1 else due - min due t.hold)
              | none => t.clock + if 0 < t.catchUp then due + 1 else due - min due t.hold) →
            n = { k with
              accumulator := (t.accumulator + t.tempo) % 100, clock := c
              catchUp := t.catchUp - 1
              hold := if 0 < t.catchUp then t.hold else t.hold - min due t.hold } →
            exec (.timelineTick r a b) s = .next
              { s.setRoom r { rm with timeline := n } with
                handed := s.handed ++ made ++ if c = t.clock then []
                  else [HandOver.toGuard r c, .toScore r c, .toLyrics r false] }.startUplink))

/-- Over n ticks in PLAYING with no credit and no end guard in the way, the clock advances by the whole part of (a
+ n × T) / 100, and the accumulator holds the remainder (R24). -/
def Obligations.TempoOverManyTicks : Prop :=
  ∀ (n : Nat) (t : Timeline), t.accumulator ≤ 99 → t.catchUp = 0 → t.hold = 0 →
    (∀ len, t.songLength = some len → t.clock + (t.accumulator + n * t.tempo) / 100 ≤ len + 3000) →
    Timeline.advance^[n] t =
      { t with
        clock := t.clock + (t.accumulator + n * t.tempo) / 100
        accumulator := (t.accumulator + n * t.tempo) % 100 }

/-- KEY_DETENT takes the oldest detent made by the room's knob. With a song open and the offset within −6..+6 the
key moves by it, up when it is clockwise and down otherwise, the key-change stamp takes the clock and KEY_CHANGED
is raised; otherwise the detent is absorbed (R36 to R38; that a detent waits to be taken is log entry 6). With none
made there is no such event (log entry 5). -/
def Obligations.KeyDetentMovesTheKey : Prop :=
  ∀ (s : State) (r : RoomId),
    ((∀ c : Bool, HandOver.detent r c ∉ s.handed) → exec (.keyDetent r) s = .next s.startUplink) ∧
    ∀ (before rest : List HandOver) (clockwise : Bool) (d : Int),
      (∀ c : Bool, HandOver.detent r c ∉ before) → s.handed = before ++ .detent r clockwise :: rest →
      d = (if clockwise then 1 else -1) →
      ((s.room r).phase.songOpen = true → -6 ≤ (s.room r).timeline.keyOffset + d →
        (s.room r).timeline.keyOffset + d ≤ 6 →
        exec (.keyDetent r) s = .next
          { s.setRoom r { s.room r with timeline := { (s.room r).timeline with
              keyOffset := (s.room r).timeline.keyOffset + d
              keyStamp := (s.room r).timeline.clock } } with
            handed := before ++ rest
            link := s.link.hear (s.room r).mask r .keyChanged }.startUplink) ∧
      ((s.room r).phase.songOpen = false ∨ (s.room r).timeline.keyOffset + d < -6 ∨
          6 < (s.room r).timeline.keyOffset + d →
        exec (.keyDetent r) s = .next { s with handed := before ++ rest }.startUplink)

/-- The oldest mark handed on for a room is taken. In PLAYING it restarts the mark timer; by its lead over the
clock, its position held at the end guard, the song length plus 3,000, it leaves no credit within −2..2, a
catch-up credit for 3..40, a hold credit below −2, and beyond 40 jumps the clock there and hands the change on;
whatever credit stood before is replaced. Outside PLAYING and PAUSED it is ignored (R8, R29, R30). -/
def Obligations.TimeMarkCorrectsThePlayingClock : Prop :=
  ∀ (s : State) (r : RoomId) (p : Nat) (before rest : List HandOver), (∀ x, HandOver.mark r x ∉ before) →
    ((s.room r).phase ≠ .playing → (s.room r).phase ≠ .paused →
      exec (.timeMark r) { s with handed := before ++ .mark r p :: rest } =
        .next ({ s with handed := before ++ rest }).startUplink) ∧
    ∀ (t n : Timeline) (q : Nat), (s.room r).phase = .playing → t = (s.room r).timeline →
      q = (match t.songLength with | some len => min p (len + 3000) | none => p) →
      n = (if t.clock + 40 < q then { t with clock := q, catchUp := 0, hold := 0 }
        else if t.clock + 3 ≤ q then { t with catchUp := q - t.clock, hold := 0 }
        else if t.clock ≤ q + 2 then { t with catchUp := 0, hold := 0 }
        else { t with catchUp := 0, hold := t.clock - q }) →
      exec (.timeMark r) { s with handed := before ++ .mark r p :: rest } = .next
        { s.setRoom r
            { s.room r with
              timeline := n, markTimer := .running (s.room r).settings.markTimeout } with
          handed := if t.clock + 40 < q then
              before ++ rest ++ [HandOver.toGuard r q, .toScore r q, .toLyrics r true]
            else before ++ rest }.startUplink

/-- The oldest mark handed on for a room is taken. In PAUSED one that makes no jump sets the credits in the same
way and then removes STALL: the room returns to PLAYING when STALL was its only reason, with its mark timer
started and RESUMED raised, and stays PAUSED by STAFF otherwise (R8, R10, R29). A jump in PAUSED moves the clock,
and its readers take it at once: the lines are evaluated, the notes passed and the end guard tested before STALL
is removed (R11, R28, R30, R52, R116; the order of the three readers, which R28 leaves open, and that they come
before STALL is removed are log entry 8). The position is held at the song length plus 3,000 (R29). -/
def Obligations.TimeMarkInAPause : Prop :=
  ∀ (s : State) (r : RoomId) (p : Nat) (before rest : List HandOver) (t n : Timeline) (q : Nat),
    (∀ x, HandOver.mark r x ∉ before) →
    (s.room r).phase = .paused → t = (s.room r).timeline →
    q = (match t.songLength with | some len => min p (len + 3000) | none => p) →
    (q ≤ t.clock + 40 →
      n = (if t.clock + 3 ≤ q then { t with catchUp := q - t.clock, hold := 0 }
        else if t.clock ≤ q + 2 then { t with catchUp := 0, hold := 0 }
        else { t with catchUp := 0, hold := t.clock - q }) →
      ((s.room r).reasons = ⟨true, false⟩ →
        exec (.timeMark r) { s with handed := before ++ .mark r p :: rest } = .next
          { s.setRoom r
              { s.room r with
                timeline := n, phase := .playing, reasons := ⟨false, false⟩
                markTimer := .running (s.room r).settings.markTimeout } with
            handed := before ++ rest
            link := s.link.hear (s.room r).mask r .resumed }.startUplink) ∧
      ((s.room r).reasons.staff = true →
        exec (.timeMark r) { s with handed := before ++ .mark r p :: rest } = .next
          { s.setRoom r { s.room r with timeline := n, reasons := ⟨false, true⟩ } with
            handed := before ++ rest }.startUplink)) ∧
    (t.clock + 40 < q → n = { t with clock := q, catchUp := 0, hold := 0 } →
      ∀ w v : State,
        w = { s.setRoom r { s.room r with timeline := n } with handed := before ++ rest }.evaluate r →
        v = w.setRoom r { w.room r with melody := { (w.room r).melody with
          notes := (w.room r).melody.notes.filter fun z => q < z.stop } } →
        ((∃ len, t.songLength = some len ∧ q = len + 3000) →
          exec (.timeMark r) { s with handed := before ++ .mark r p :: rest } =
            exec (.endGuard r) { v with handed := .toGuard r q :: v.handed }) ∧
        ((∀ len, t.songLength = some len → q < len + 3000) → (s.room r).reasons.staff = true →
          exec (.timeMark r) { s with handed := before ++ .mark r p :: rest } =
            .next (v.setRoom r { v.room r with reasons := ⟨false, true⟩ }).startUplink) ∧
        ((∀ len, t.songLength = some len → q < len + 3000) → (s.room r).reasons = ⟨true, false⟩ →
        exec (.timeMark r) { s with handed := before ++ .mark r p :: rest } = .next
          { v.setRoom r
              { v.room r with
                phase := .playing, reasons := ⟨false, false⟩
                markTimer := .running (s.room r).settings.markTimeout } with
            link := v.link.hear (s.room r).mask r .resumed }.startUplink))

/-- The oldest clock change handed on to the lyric table unit for a room, whatever stands before it for other
readers and rooms, is an evaluation in PLAYING, and in PAUSED when a jump made it; in any other case it changes
nothing (R52). An evaluation retires the LOADED lines whose end has come, the last of them kept as the skipped one
with LYRIC_SKIPPED raised (R53). An occupant of a row moves forward alone: SINGING from its start, DONE from its
end, and retired once its linger is over; a row then free shows its first LOADED line once the preroll has come,
at once SINGING when its start has. Every other line stays as it is, and the list keeps its order (R54, R55). -/
def Obligations.EvaluationBringsLinesUpToDate : Prop :=
  (∀ (s : State) (r : RoomId) (jump : Bool) (before rest : List HandOver),
    (∀ x, HandOver.toLyrics r x ∉ before) →
    ((s.room r).phase = .playing ∨ ((s.room r).phase = .paused ∧ jump = true) →
      exec (.evaluation r) { s with handed := before ++ .toLyrics r jump :: rest } =
        .next ({ s with handed := before ++ rest }.evaluate r).startUplink) ∧
    ((s.room r).phase ≠ .playing → ((s.room r).phase = .paused → jump = false) →
      exec (.evaluation r) { s with handed := before ++ .toLyrics r jump :: rest } =
        .next { s with handed := before ++ rest }.startUplink)) ∧
  (∀ (s : State) (r : RoomId),
    s.evaluate r =
      { s.setRoom r
          { s.room r with
            lyrics := (s.room r).lyrics.evaluate (s.room r).timeline.clock (s.room r).settings.preroll
              (s.room r).settings.linger } with
        link := if (s.room r).lyrics.lines.any (fun l =>
            l.state = .loaded && l.stop ≤ (s.room r).timeline.clock)
          then s.link.hear (s.room r).mask r .lyricSkipped else s.link }) ∧
  ∀ (y : Lyrics) (t preroll linger : Nat) (moved : Line → Option Line), y.RowsAgree →
    (y.lines.map (·.id)).Nodup →
    -- where the clock takes an occupant, or none when it is retired
    moved = (fun l => match l.state with
      | .loaded => some l
      | .shown => if t < l.start then some l else if t < l.stop then some { l with state := .singing }
          else if t < l.stop + linger then some { l with state := .done } else none
      | .singing => if t < l.stop then some l
          else if t < l.stop + linger then some { l with state := .done } else none
      | .done => if t < l.stop + linger then some l else none) →
    (y.evaluate t preroll linger).RowsAgree ∧
    (y.evaluate t preroll linger).lastLoaded = y.lastLoaded ∧
    (y.evaluate t preroll linger).lastSkipped =
      ((y.lines.filter fun l => l.state = .loaded && l.stop ≤ t).getLast?.map (·.id)).or y.lastSkipped ∧
    (y.evaluate t preroll linger).lines = y.lines.filterMap fun l =>
      if l.state ≠ .loaded then moved l
      else if l.stop ≤ t then none
      else if (y.lines.any fun k => k.row = l.row && k.state ≠ .loaded && (moved k).isSome) = true ∨
          y.lines.find? (fun k => k.row = l.row && k.state = .loaded && t < k.stop) ≠ some l ∨
          t + preroll < l.start then some l
      else some { l with state := if t < l.start then .shown else .singing }

/-- The oldest clock change handed on to the score unit for a room, whatever stands before it for other readers
and rooms, retires the notes whose end it has reached; in PLAYING a PENDING onset of a seen note so closed is
counted MISSED and judged, for each of the room's channels, until the judged count stands at 65,535 and none is
counted more (R116, R125). Outside PLAYING and PAUSED nothing is passed. -/
def Obligations.PassClosesNotes : Prop :=
  ∀ (s : State) (r : RoomId) (t : Nat) (before rest : List HandOver) (kept : Melody),
    (∀ x, HandOver.toScore r x ∉ before) →
    kept = { (s.room r).melody with notes := (s.room r).melody.notes.filter (fun n => t < n.stop) } →
    ((s.room r).phase = .playing →
      ∀ missed : Mic → Nat,
        (∀ m, missed m = min (65535 - ((s.room r).singers.get m).judged)
          ((s.room r).melody.notes.filter fun n =>
            n.stop ≤ t && n.onset.get m = .pending && n.seen.get m).length) →
        exec (.pass r) { s with handed := before ++ .toScore r t :: rest } = .next
          { s.setRoom r
              { s.room r with
                melody := kept
                singers :=
                  ⟨{ (s.room r).singers.one with
                      judged := (s.room r).singers.one.judged + missed .mic1
                      missed := (s.room r).singers.one.missed + missed .mic1 },
                    { (s.room r).singers.two with
                      judged := (s.room r).singers.two.judged + missed .mic2
                      missed := (s.room r).singers.two.missed + missed .mic2 }⟩ } with
            handed := before ++ rest }.startUplink) ∧
    ((s.room r).phase = .paused →
      exec (.pass r) { s with handed := before ++ .toScore r t :: rest } = .next
        { s.setRoom r { s.room r with melody := kept } with handed := before ++ rest }.startUplink) ∧
    ((s.room r).phase ≠ .playing → (s.room r).phase ≠ .paused →
      exec (.pass r) { s with handed := before ++ .toScore r t :: rest } =
        .next { s with handed := before ++ rest }.startUplink)

/-- Mark timer expiry in PLAYING stops the timer and holds the room by STALL, the rings clear and PAUSED raised
(R3, R8, R98). Cue timer expiry in CUEING returns the room to ATTRACT: the head removed by a queue change with
CANCELLED news to its owner, the result record ABORTED, CUE_TIMEOUT raised, lines and notes returned, and then an
offer trigger; the record's singers are as the counters stand, which SONG_OPEN cleared (R14, R162). That
QUEUE_CHANGED enters before CUE_TIMEOUT is the model's choice (log entry 12). A timer expires once its time has
run out (log entry 4): an expiry of a timer that is stopped or, as after a restart, has time left has no effect
(R8; log entry 5). That the removed entry's news stands before the NEXT_UP of the head then offered is the model's
choice (log entry 12). -/
def Obligations.MarkAndCueTimersExpire : Prop :=
  ∀ (s : State) (r : RoomId),
    ((s.room r).markTimer = .running 0 → (s.room r).phase = .playing →
      exec (.markTimerExpiry r) s = .next
        { s.setRoom r
            { (s.room r).hushed with
              phase := .paused, reasons := ⟨true, false⟩, markTimer := .stopped } with
          engine := s.engine.voided r
          link := s.link.hear (s.room r).mask r .paused }.startUplink) ∧
    ((s.room r).markTimer ≠ .running 0 → exec (.markTimerExpiry r) s = .next s.startUplink) ∧
    (∀ (e : Entry) (es : List Entry), (s.room r).cueTimer = .running 0 →
      (s.room r).phase = .cueing → (s.room r).queue.entries = e :: es → (∀ x ∈ es, x.ticket ≠ e.ticket) →
      exec (.cueTimerExpiry r) s = .next
        ({ s.setRoom r
            { s.room r with
              phase := .attract, reasons := ⟨false, false⟩, markTimer := .stopped, cueTimer := .stopped
              result := some ⟨e.ticket, e.song, .aborted,
                ⟨(s.room r).singerEntry .mic1, (s.room r).singerEntry .mic2⟩⟩
              lyrics := { (s.room r).lyrics with lines := [], lastLoaded := none }
              melody := ⟨[], none, none, none⟩
              queue := (s.room r).queue.afterHead e es
              line := (s.room r).line.placeNews e.owner ⟨.cancelled, e.ticket⟩ } with
          link := (s.link.hear (s.room r).mask r .queueChanged).hear (s.room r).mask r
            .cueTimeout }.offerTrigger r).startUplink) ∧
    ((∀ m : Mic, ((s.room r).singers.get m).graded = 0) →
      ∀ m : Mic, ((s.room r).singerEntry m).notScored = true) ∧
    ((s.room r).cueTimer ≠ .running 0 → exec (.cueTimerExpiry r) s = .next s.startUplink)

/-- Result-hold expiry in RESULT returns the room to ATTRACT, its lines and notes returned, a suspended
video-stale timer running on, the result record kept, and is an offer trigger (R12, R15). Video-stale expiry
stops the timer and raises VIDEO_STALE; a suspended timer does not expire (R15). Offer timer expiry puts an
OFFERED head back to QUEUED, its ticket kept as the lapsed one and offers suspended, and raises OFFER_TIMEOUT
(R155, R157). A timer expires once its time has run out (log entry 4): an expiry of one that is stopped or, as
after a restart, has time left has no effect (R15; log entry 5). -/
def Obligations.RoomTimersExpire : Prop :=
  (∀ (s : State) (r : RoomId),
    ((s.room r).holdTimer = .running 0 → (s.room r).phase = .result →
      exec (.resultHoldExpiry r) s = .next
        ((s.setRoom r
          { s.room r with
            phase := .attract, holdTimer := .stopped
            staleTimer := match (s.room r).staleTimer with
              | .suspended k => .running k
              | .running k => .running k
              | .stopped => .stopped
            lyrics := { (s.room r).lyrics with lines := [], lastLoaded := none }
            melody := ⟨[], none, none, none⟩ }).offerTrigger r).startUplink) ∧
    ((s.room r).holdTimer ≠ .running 0 → exec (.resultHoldExpiry r) s = .next s.startUplink) ∧
    ((s.room r).staleTimer = .running 0 →
      exec (.videoStaleExpiry r) s = .next
        { s.setRoom r { s.room r with staleTimer := .stopped } with
          link := s.link.hear (s.room r).mask r .videoStale }.startUplink) ∧
    ((s.room r).staleTimer ≠ .running 0 →
      exec (.videoStaleExpiry r) s = .next s.startUplink)) ∧
  ∀ (s : State) (r : RoomId),
    (∀ (e : Entry) (es : List Entry), (s.room r).queue.offerTimer = .running 0 →
      (s.room r).queue.entries = e :: es → e.state = .offered →
      exec (.offerTimerExpiry r) s = .next
        { s.setRoom r
            { s.room r with queue := { (s.room r).queue with
                entries := { e with state := .queued } :: es, offerTimer := .stopped, suspended := true
                lapsed := some e.ticket } } with
          link := s.link.hear (s.room r).mask r .offerTimeout }.startUplink) ∧
    ((s.room r).queue.offerTimer ≠ .running 0 → exec (.offerTimerExpiry r) s = .next s.startUplink)

/-! ## Video, output frames, microphones and analyses -/

/-- The oldest VIDEO cell handed on for a room is taken. It is discarded uncounted in DARK and counted when
malformed: of another length than 645, or with a line above 719 or a segment above 3, at the offsets of 11.1. A
well-formed segment joins the frame being gathered when its sequence is that frame's, abandons it when newer, and
opens a frame in the lowest FREE buffer when none is gathered and it is newer than the last completed; any other
is discarded and counted. Its 640 bytes are written into the FILLING buffer, its flag set, and the count raised
unless the flag was set (R80 to R85; its index is 4 times its line plus its segment, and a distance is taken
modulo 65,536). A cell that brings the count to 2,880 completes the frame in the same event, which
`Obligations.FrameCompletionMakesReady` says. -/
def Obligations.VideoCellsAreGathered : Prop :=
  ∀ (s : State) (r : RoomId) (p : List Byte) (before rest : List HandOver) (v : FrameManager)
      (byte two : Nat → Nat) (wellFormed : Prop) (sequence index : Nat) (ahead : Nat → Nat),
    (∀ x, HandOver.video r x ∉ before) → v = (s.room r).video → v.RolesAgree →
    byte = (fun i => (p.getD i 0).toNat) → two = (fun i => 256 * byte i + byte (i + 1)) →
    (wellFormed ↔ p.length = 645 ∧ two 2 ≤ 719 ∧ byte 4 ≤ 3) →
    sequence = two 0 → index = 4 * two 2 + byte 4 →
    -- the forward distance to the cell's sequence
    ahead = (fun k : Nat => (((sequence : Int) - (k : Int)) % 65536).toNat) →
    ((s.room r).phase = .dark →
      exec (.video r) { s with handed := before ++ .video r p :: rest } =
        .next { s with handed := before ++ rest }.startUplink) ∧
    ∀ w : FrameManager, (s.room r).phase ≠ .dark → (∀ f ∈ w.record, f.count < 2880) →
      ((¬wellFormed ∧ w = { v with discarded := satInc v.discarded }) ∨
        wellFormed ∧
          ((∃ f b, v.record = some f ∧ v.roles.get b = .filling ∧ f.sequence = sequence ∧
              w = { v with
                pictures := v.pictures.set b (memWrite blackByte (v.pictures.get b) (640 * index) (p.drop 5))
                record := some
                  { f with
                    bitmap := if f.bitmap.getLsbD index then f.bitmap
                      else f.bitmap ||| BitVec.twoPow Config.segments index
                    count := if f.bitmap.getLsbD index then f.count else f.count + 1 } }) ∨
            (∃ f b, v.record = some f ∧ v.roles.get b = .filling ∧
              1 ≤ ahead f.sequence ∧ ahead f.sequence ≤ 32767 ∧
              w = { v with
                pictures := v.pictures.set b (memWrite blackByte (v.pictures.get b) (640 * index) (p.drop 5))
                record := some ⟨sequence, BitVec.twoPow Config.segments index, 1⟩
                abandoned := satInc v.abandoned }) ∨
            (∃ f, v.record = some f ∧ 32768 ≤ ahead f.sequence ∧
              w = { v with discarded := satInc v.discarded }) ∨
            (∃ b, v.record = none ∧
              (∀ last ∈ v.lastCompleted, 1 ≤ ahead last ∧ ahead last ≤ 32767) ∧
              v.roles.get b = .free ∧ (∀ c, c < b → v.roles.get c ≠ .free) ∧
              w = { v with
                roles := v.roles.set b .filling
                pictures := v.pictures.set b (memWrite blackByte (v.pictures.get b) (640 * index) (p.drop 5))
                record := some ⟨sequence, BitVec.twoPow Config.segments index, 1⟩ }) ∨
            (∃ last, v.record = none ∧ v.lastCompleted = some last ∧
              (ahead last = 0 ∨ 32768 ≤ ahead last) ∧
              w = { v with discarded := satInc v.discarded }))) →
      exec (.video r) { s with handed := before ++ .video r p :: rest } = .next
        { s.setRoom r { s.room r with video := w } with handed := before ++ rest }.startUplink

/-- A VIDEO cell that sets the last clear flag of the filling frame completes it in its own event, whether VIDEO
or FRAME_COMPLETION names it (log entry 6): its bytes are written, the buffer becomes READY, the last completed
sequence takes the frame's own, the record empties, a READY frame before it becomes FREE and is counted dropped,
and the video-stale timer starts again, or in RESULT keeps the full 2 s (R15, R83, R86). When no waiting cell
completes a frame, FRAME_COMPLETION has no effect (log entry 5). The fields of a cell lie at the offsets of 11.1
(R80, R82). -/
def Obligations.FrameCompletionMakesReady : Prop :=
  ∀ (s : State) (r : RoomId) (v : FrameManager), v = (s.room r).video → v.RolesAgree →
    ∀ (two : List Byte → Nat → Nat) (wellFormed : List Byte → Prop) (index : List Byte → Nat),
    two = (fun p i => 256 * (p.getD i 0).toNat + (p.getD (i + 1) 0).toNat) →
    wellFormed = (fun p => p.length = 645 ∧ two p 2 ≤ 719 ∧ (p.getD 4 0).toNat ≤ 3) →
    index = (fun p => 4 * two p 2 + (p.getD 4 0).toNat) →
    ((∀ p, HandOver.video r p ∉ s.handed) ∨ (s.room r).phase = .dark ∨ (∀ f ∈ v.record, f.count < 2879) →
      exec (.frameCompletion r) s = .next s.startUplink) ∧
    (∀ (before rest : List HandOver) (p : List Byte) (f : FillRecord),
      s.handed = before ++ .video r p :: rest → (∀ p, HandOver.video r p ∉ before) → v.record = some f →
      (wellFormed p → ((two p 0 : Int) - (f.sequence : Int)) % 65536 ≠ 0 ∨ f.bitmap.getLsbD (index p) = true) →
      exec (.frameCompletion r) s = .next s.startUplink) ∧
    ∀ (before rest : List HandOver) (p : List Byte) (f : FillRecord) (b : Fin 3)
        (w : FrameManager) (timer : StaleTimer),
      s.handed = before ++ .video r p :: rest → (∀ p, HandOver.video r p ∉ before) →
      (s.room r).phase ≠ .dark → v.record = some f → f.count = 2879 → v.roles.get b = .filling →
      wellFormed p → two p 0 = f.sequence → f.bitmap.getLsbD (index p) = false →
      timer = (if (s.room r).phase = .result then .suspended 2000 else .running 2000) →
      w = { v with
        pictures := v.pictures.set b (memWrite blackByte (v.pictures.get b) (640 * index p) (p.drop 5))
        record := none, lastCompleted := some f.sequence, completed := satInc v.completed } →
      ((∀ c, v.roles.get c ≠ .ready) →
        ∀ u : State, u = { s.setRoom r
            { s.room r with
              video := { w with roles := v.roles.set b .ready }, staleTimer := timer } with
          handed := before ++ rest } →
        exec (.video r) s = .next u.startUplink ∧ exec (.frameCompletion r) s = .next u.startUplink) ∧
      (∀ c, v.roles.get c = .ready →
        ∀ u : State, u = { s.setRoom r
            { s.room r with
              video := { w with
                roles := (v.roles.set c .free).set b .ready, dropped := satInc v.dropped }
              staleTimer := timer } with
          handed := before ++ rest } →
        exec (.video r) s = .next u.startUplink ∧ exec (.frameCompletion r) s = .next u.startUplink)

/-- At an output frame start the READY buffer, if any, becomes FRONT and the old FRONT FREE, a pending band table
becomes active, the display mode is read, and the frame is drawn from a snapshot of the room, with the picture of
the buffer that is FRONT after the rotation, or black in DARK; while the reset line is asserted no frame starts
(R61 to R63, R87). The banner's scores are the parts and live scores of the channels, and the parts and final
scores of the result record (R76). -/
def Obligations.OutputFrameStartTakesTheSnapshot : Prop :=
  ∀ (s : State) (r : RoomId),
    (s.link.resetLine = true → exec (.outputFrameStart r) s = .next s.startUplink) ∧
    ∀ (v w : FrameManager) (active : List Band) (o shown : Fin 3), s.link.resetLine = false →
      v = (s.room r).video → v.RolesAgree → v.roles.get o = .front →
      ((w = v ∧ ∀ c, v.roles.get c ≠ .ready) ∨
        ∃ c, v.roles.get c = .ready ∧ w = { v with roles := (v.roles.set o .free).set c .front }) →
      w.roles.get shown = .front →
      active = (s.room r).compositor.slot.getD (s.room r).compositor.active →
      exec (.outputFrameStart r) s = .next
        (s.setRoom r
          { s.room r with
            video := w
            compositor := { (s.room r).compositor with
              active := active, slot := none, rate := (s.room r).settings.displayMode
              display := if (s.room r).phase = .dark then .black else .frame
                { phase := (s.room r).phase, clock := (s.room r).timeline.clock
                  upper := (s.room r).lyrics.lines.find? fun l => l.row = 0 && l.state ≠ .loaded
                  lower := (s.room r).lyrics.lines.find? fun l => l.row = 1 && l.state ≠ .loaded
                  glyphs := s.glyphs, palette := (s.room r).compositor.palette
                  live :=
                    ⟨⟨(s.room r).settings.micParts.one, (s.room r).singers.one.live⟩,
                      ⟨(s.room r).settings.micParts.two, (s.room r).singers.two.live⟩⟩
                  final := match (s.room r).result with
                    | none => ⟨⟨.none, none⟩, ⟨.none, none⟩⟩
                    | some z =>
                      ⟨⟨z.singers.one.part, if z.singers.one.notScored then none else some z.singers.one.final⟩,
                        ⟨z.singers.two.part, if z.singers.two.notScored then none else some z.singers.two.final⟩⟩
                  songs := ((s.room r).queue.entries.take 4).map (·.song)
                  bands := active, digitBase := (s.room r).settings.digitBase
                  picture := w.pictures.get shown } } }).startUplink

/-- The bands of a table lie below one another from line 0; a band outside its mask, PAUSED counting as PLAYING,
or a lyric band in RESULT, is undimmed video, and any other is drawn by its kind, lines below the table being
undimmed video (R67). A dim takes luma by floor and chroma toward 128, of every video pixel under it (R69, R70).
In a lyric band the line lies by alignment and margin, its glyph rows centred by the band's height as cut at line
719 (log entry 19), clipped at the margin and at the band's end (R72, R73); a glyph's columns follow those before
it with gaps of 2, the gaps and the columns behind the last glyph being video, and its pixels take the outline and
body colours of the line's part, A, B or BOTH, sung up to the wipe of the syllable that holds the glyph, which
grows with the clock over the syllable's duration (R74, R75). A score is drawn in the banner colour as its digits,
the point and its tenth, mic 1's from the left margin and mic 2's up to the right one, in PLAYING and PAUSED the
live scores and in RESULT the final ones (R76, R77); the queue band draws each song as six digits, laid out as a
line (R78). The port sends each pixel's luma and the chroma of the even column of its pair (R61), black where a
frame has been cut (R64). -/
def Obligations.FramePixelsFollowTheBands : Prop :=
  (∀ (s : Snapshot) (x y top : Nat), y < 720 →
    (∀ (before after : List Band) (b : Band), s.bands = before ++ b :: after →
      top = (before.map (·.height)).sum → top ≤ y → y < top + b.height →
      ∀ included : Bool,
      included = (match s.phase with
        | .attract => b.mask.attract | .cueing => b.mask.cueing | .playing => b.mask.playing
        | .paused => b.mask.playing | .result => b.mask.result | .dark => false) →
      (included = false ∨
          (s.phase = .result ∧ (b.kind = .lyricUpper ∨ b.kind = .lyricLower)) →
        s.pixel x y = s.videoPixel 0 x y) ∧
      ∀ d : DrawnBand, included = true →
        s.phase ≠ .result ∨ (b.kind ≠ .lyricUpper ∧ b.kind ≠ .lyricLower) →
        d = ⟨b.kind, b.dim, b.alignment, b.margin, top, min b.height (720 - top)⟩ →
        s.pixel x y =
          match b.kind with
          | .video => s.videoPixel b.dim x y
          | .lyricUpper => s.lyricPixel d s.upper x y
          | .lyricLower => s.lyricPixel d s.lower x y
          | .score => s.scorePixel d x y
          | .queue => s.queuePixel d x y
          | .blank => .black) ∧
    ((s.bands.map (·.height)).sum ≤ y → s.pixel x y = s.videoPixel 0 x y)) ∧
  (∀ (d : Nat) (c : Colour), d ≤ 7 →
    (c.dimmed d).y.toNat = c.y.toNat * (8 - d) / 8 ∧
    ((c.dimmed d).cb.toNat : Int) = 128 + (((c.cb.toNat : Int) - 128) * (8 - d)).tdiv 8 ∧
    ((c.dimmed d).cr.toNat : Int) = 128 + (((c.cr.toNat : Int) - 128) * (8 - d)).tdiv 8) ∧
  (∀ (s : Snapshot) (b : DrawnBand) (x y : Nat),
    s.lyricPixel b none x y = s.videoPixel b.dim x y ∧
    ∀ (l : Line) (w x0 first : Nat), w = rowWidth s.glyphs (l.glyphs.map fun c => (Element.glyph c, 2)) →
      x0 = (if 1280 - 2 * b.margin < w then b.margin else
        match b.alignment with
        | .left => b.margin
        | .center => b.margin + (1280 - 2 * b.margin - w) / 2
        | .right => 1280 - b.margin - w) →
      first = b.top + (if 40 ≤ b.height then (b.height - 40) / 2 else 0) →
      (∀ i < 40, y = first + i → y < b.top + b.height → x < 1280 - b.margin →
        s.lyricPixel b (some l) x y = s.linePixel l x0 i x (s.videoPixel b.dim x y)) ∧
      (y < first ∨ first + 40 ≤ y ∨ b.top + b.height ≤ y ∨ 1280 - b.margin ≤ x →
        s.lyricPixel b (some l) x y = s.videoPixel b.dim x y)) ∧
  (∀ (s : Snapshot) (l : Line) (x0 i : Nat) (under : Colour),
    (∀ x < x0, s.linePixel l x0 i x under = under) ∧
    (∀ x, x0 + (l.glyphs.map fun c => ((s.glyphs.entry c).map (·.width)).getD 16 + 2).sum ≤ x →
      s.linePixel l x0 i x under = under) ∧
    (∀ (before after : List Nat) (code : Nat), l.glyphs = before ++ code :: after → ∀ j < 2,
      s.linePixel l x0 i
        (x0 + ((before ++ [code]).map fun c => ((s.glyphs.entry c).map (·.width)).getD 16 + 2).sum - 2 + j)
        under = under) ∧
    ∀ (before after : List Nat) (code x : Nat) (colours : PartColours), l.glyphs = before ++ code :: after →
      colours = (match l.part with | .a => s.palette.a | .b => s.palette.b | .both => s.palette.both) →
      ∀ j < ((s.glyphs.entry code).map (·.width)).getD 16,
        x = x0 + (before.map fun c => ((s.glyphs.entry c).map (·.width)).getD 16 + 2).sum + j →
        (s.glyphs.entry code = none → s.linePixel l x0 i x under = under) ∧
        (∀ (g : GlyphEntry) (p : Byte), s.glyphs.entry code = some g →
          p = memRead clearCell s.glyphs.cells (g.offset + i * g.width + j) →
          s.linePixel l x0 i x under =
            if p = 0 then under
            else if p = 1 then colours.outline
            else
              match l.syllables.find? (fun z => z.first ≤ before.length && before.length < z.first + z.count) with
              | none => colours.unsung
              | some z =>
                if x < x0 + ((l.glyphs.take z.first).map fun c =>
                      ((s.glyphs.entry c).map (·.width)).getD 16 + 2).sum +
                    wipe l.state s.clock (rowWidth s.glyphs
                      (((l.glyphs.drop z.first).take z.count).map fun c => (Element.glyph c, 2))) z
                then colours.sung
                else colours.unsung)) ∧
  (∀ (z : Syllable) (clock sw : Nat),
    wipe .shown clock sw z = 0 ∧ wipe .done clock sw z = sw ∧
    (clock < z.onset → wipe .singing clock sw z = 0) ∧
    (z.onset + z.duration ≤ clock → wipe .singing clock sw z = sw) ∧
    (z.onset ≤ clock → clock < z.onset + z.duration →
      wipe .singing clock sw z = sw * (clock - z.onset) / z.duration)) ∧
  -- a row of text in the banner colour
  (∀ (s : Snapshot) (t : TextRow) (x0 i : Nat) (under : Colour) (width : Element → Nat)
      (shows : Element → Nat → Prop),
    width = (fun e => match e with
      | .glyph code => ((s.glyphs.entry code).map (·.width)).getD 16 | .point => 8) →
    shows = (fun e j => match e with
      | .glyph code => ∃ g, s.glyphs.entry code = some g ∧
          memRead clearCell s.glyphs.cells (g.offset + i * g.width + j) ≠ 0
      | .point => 32 ≤ i ∧ i ≤ 37 ∧ 1 ≤ j ∧ j ≤ 6) →
    (∀ (before : TextRow) (e : Element) (gap : Nat), t = before ++ [(e, gap)] →
      rowWidth s.glyphs t = (before.map fun z => width z.1 + z.2).sum + width e) ∧
    (∀ x < x0, s.bannerPixel t x0 i x under = under) ∧
    (∀ x, x0 + (t.map fun z => width z.1 + z.2).sum ≤ x → s.bannerPixel t x0 i x under = under) ∧
    ∀ (before after : TextRow) (e : Element) (gap j x : Nat), t = before ++ (e, gap) :: after →
      x = x0 + (before.map fun z => width z.1 + z.2).sum + j →
      (j < width e → shows e j → s.bannerPixel t x0 i x under = s.palette.banner) ∧
      (j < width e → ¬shows e j → s.bannerPixel t x0 i x under = under) ∧
      (width e ≤ j → j < width e + gap → s.bannerPixel t x0 i x under = under)) ∧
  -- the score band and the queue band
  (∀ (s : Snapshot) (b : DrawnBand) (x y first : Nat) (under : Colour), under = s.videoPixel b.dim x y →
    first = b.top + (if 40 ≤ b.height then (b.height - 40) / 2 else 0) →
    (y < first ∨ first + 40 ≤ y ∨ b.top + b.height ≤ y →
      s.scorePixel b x y = under ∧ s.queuePixel b x y = under) ∧
    (s.phase = .dark ∨ s.phase = .attract ∨ s.phase = .cueing → s.scorePixel b x y = under) ∧
    ∀ i < 40, y = first + i → y < b.top + b.height →
      (∀ (v : PerMic ScoreView) (text : Nat → TextRow) (shown : ScoreView → Option Nat) (left : Colour),
        ((s.phase = .playing ∨ s.phase = .paused) ∧ v = s.live ∨ s.phase = .result ∧ v = s.final) →
        text = (fun n => (((if 1000 ≤ n then [n / 1000] else []) ++ (if 100 ≤ n then [n / 100 % 10] else []) ++
          [n / 10 % 10]).map (fun d => (Element.glyph (s.digitBase + d), 2))) ++
          [(.point, 2), (.glyph (s.digitBase + n % 10), 2)]) →
        shown = (fun z => if z.part = .none then none else z.score) →
        left = (match shown v.one with
          | some n => s.bannerPixel (text n) b.margin i x under
          | none => under) →
        s.scorePixel b x y = match shown v.two with
          | some n => s.bannerPixel (text n) (1280 - b.margin - rowWidth s.glyphs (text n)) i x left
          | none => left) ∧
      ∀ (t : TextRow) (w x0 : Nat),
        t = s.songs.flatMap (fun n => (List.range 6).map fun k =>
          (Element.glyph (s.digitBase + n / 10 ^ (5 - k) % 10), if k = 5 then 24 else 2)) →
        w = rowWidth s.glyphs t →
        x0 = (if 1280 - 2 * b.margin < w then b.margin else
          match b.alignment with
          | .left => b.margin
          | .center => b.margin + (1280 - 2 * b.margin - w) / 2
          | .right => 1280 - b.margin - w) →
        s.queuePixel b x y = if x < 1280 - b.margin then s.bannerPixel t x0 i x under else under) ∧
  -- the display port
  ∀ (s : Snapshot) (d : Display) (x y n : Nat),
    d.port (2 * x) y = d.pixel (2 * x) y ∧
    d.port (2 * x + 1) y = { d.pixel (2 * x) y with y := (d.pixel (2 * x + 1) y).y } ∧
    Display.black.pixel x y = ⟨0, 128, 128⟩ ∧ (Display.frame s).pixel x y = s.pixel x y ∧
    ((Display.frame s).cutAfter n).pixel x y = (if y < n then s.pixel x y else ⟨0, 128, 128⟩) ∧
    (Display.cut s n).cutAfter x = .cut s n ∧ Display.black.cutAfter n = .black ∧
    (∀ dim : Nat, s.videoPixel dim x y = (s.videoPixel 0 x y).dimmed dim) ∧
    s.videoPixel 0 x y =
      ⟨memRead blackByte s.picture (640 * (4 * y + x / 320) + 4 * (x % 320 / 2) + x % 2),
        memRead blackByte s.picture (640 * (4 * y + x / 320) + 4 * (x % 320 / 2) + 2),
        memRead blackByte s.picture (640 * (4 * y + x / 320) + 4 * (x % 320 / 2) + 3)⟩

/-- A sample pair of a room that is not DARK is staged, as received, for both channels; the 64th sample of a
channel makes a MIC cell with its sequence in its waiting slot, an untaken cell there being lost and counted, and
empties the staging (R92, R93). In PLAYING, with a part and the pitch cell table LOADED, a channel also writes the
sample, divided by 16 toward minus infinity, into its ring. Its waiting request ages by one, and at 240 is removed
and counted as dropped; its hop counter rises, and the 320th sample makes a request stamped with the song clock,
after which the arbiter is asked once for both channels (R95 to R97, R100). In DARK, and while the reset line is
asserted, the pair is discarded (R20, R92). -/
def Obligations.SamplePairStagedAndWritten : Prop :=
  ∀ (s : State) (r : RoomId) (x1 x2 : BitVec 16),
    (s.link.resetLine = true ∨ (s.room r).phase = .dark →
      exec (.samplePair r x1 x2) s = .next s.startUplink) ∧
    (s.link.resetLine = false → (s.room r).phase ≠ .dark →
      ∀ (sample : Mic → BitVec 16) (waiting : Mic → Option MicCell) (writes : Mic → Prop)
        (staged aged taken : Mic → MicChannel) (u : State),
        sample = (fun m => match m with | .mic1 => x1 | .mic2 => x2) →
        writes = (fun m => (s.room r).phase = .playing ∧ (s.room r).settings.micParts.get m ≠ .none ∧
          s.engine.table.isSome = true) →
        -- the staging and the waiting slot
        (∀ (m : Mic) (c : MicChannel), c = (s.room r).mics.get m →
          (c.staging.length < 63 → staged m = { c with staging := c.staging ++ [sample m] } ∧
            waiting m = s.link.micWaiting.get (channelOf r m)) ∧
          (63 ≤ c.staging.length →
            staged m = { c with
              staging := [], sequence := (c.sequence + 1) % 65536
              lost := if (s.link.micWaiting.get (channelOf r m)).isSome then satInc c.lost else c.lost } ∧
            waiting m = some ⟨c.sequence, c.staging ++ [sample m]⟩)) →
        -- the ring, the waiting request and the hop counter
        (∀ (m : Mic) (c : MicChannel), c = staged m →
          (¬writes m → taken m = c) ∧
          (writes m →
            (∀ d : MicChannel,
              d = { c with
                ring := c.ring.set c.writePos ((sample m).toInt / 16)
                writePos := (c.writePos + 1) % 640 } →
              (c.request = none → aged m = d) ∧
              ∀ q, c.request = some q →
                (q.age < 239 → aged m = { d with request := some ⟨q.stamp, q.age + 1⟩ }) ∧
                (239 ≤ q.age → aged m = { d with request := none, dropped := satInc c.dropped })) ∧
            (c.hopCount < 319 → taken m = { aged m with hopCount := c.hopCount + 1 }) ∧
            (319 ≤ c.hopCount →
              taken m = { aged m with
                hopCount := 0, request := some ⟨(s.room r).timeline.clock, 0⟩ }))) →
        u = { s.setRoom r { s.room r with mics := ⟨taken .mic1, taken .mic2⟩ } with
          link := { s.link with
            micWaiting := (s.link.micWaiting.set (channelOf r .mic1) (waiting .mic1)).set (channelOf r .mic2)
              (waiting .mic2) } } →
        ((∀ m, writes m → ((s.room r).mics.get m).hopCount < 319) →
          exec (.samplePair r x1 x2) s = .next u.startUplink) ∧
        ((∃ m, writes m ∧ 319 ≤ ((s.room r).mics.get m).hopCount) →
          exec (.samplePair r x1 x2) s = .next u.arbitrate.startUplink))

/-- MIC_CELL_COMPLETE names the sample pair that is the 64th of a channel's staging, and REQUEST_EXPIRY the one
that brings the age of its waiting request to 240; each is that pair's arrival, with all that it does, and no event
when the pair is not that one (log entries 5 and 6). The completed cell carries the channel's sequence and its 64
samples and stands in the waiting slot, or goes to a free uplink at once (R93, R169); the expired request is removed
and counted as dropped (R97). -/
def Obligations.MicCellsCompleteAndRequestsExpire : Prop :=
  ∀ (s : State) (r : RoomId) (m : Mic) (c : MicChannel) (x1 x2 : BitVec 16), c = (s.room r).mics.get m →
    (s.link.resetLine = true ∨ (s.room r).phase = .dark ∨ c.staging.length < 63 →
      exec (.micCellComplete ⟨channelOf r m, x1, x2⟩) s = .next s.startUplink) ∧
    (s.link.resetLine = false → (s.room r).phase ≠ .dark → 63 ≤ c.staging.length →
      ∃ u : State, exec (.micCellComplete ⟨channelOf r m, x1, x2⟩) s = .next u.startUplink ∧
        exec (.samplePair r x1 x2) s = .next u.startUplink ∧
        u.link.micWaiting.get (channelOf r m) =
          some ⟨c.sequence, c.staging ++ [match m with | .mic1 => x1 | .mic2 => x2]⟩ ∧
        ((u.room r).mics.get m).staging = [] ∧
        ((u.room r).mics.get m).sequence = (c.sequence + 1) % 65536 ∧
        ((u.room r).mics.get m).lost =
          if (s.link.micWaiting.get (channelOf r m)).isSome then satInc c.lost else c.lost) ∧
    (s.link.resetLine = true ∨ (s.room r).phase ≠ .playing ∨ (s.room r).settings.micParts.get m = .none ∨
        s.engine.table = none ∨ (∀ q ∈ c.request, q.age < 239) →
      exec (.requestExpiry ⟨channelOf r m, x1, x2⟩) s = .next s.startUplink) ∧
    ∀ q, s.link.resetLine = false → (s.room r).phase = .playing →
      (s.room r).settings.micParts.get m ≠ .none → s.engine.table.isSome = true →
      c.request = some q → 239 ≤ q.age →
      ∃ u : State, exec (.requestExpiry ⟨channelOf r m, x1, x2⟩) s = .next u.startUplink ∧
        exec (.samplePair r x1 x2) s = .next u.startUplink ∧
        (c.hopCount < 319 → ((u.room r).mics.get m).request = none) ∧
        ((u.room r).mics.get m).dropped = satInc c.dropped

/-- HOP_COMPLETE names the sample pair that is the 320th a channel of the room writes since its last hop: it is
that pair's arrival, with all that it does, which raises a request stamped with the song clock, of age 0, for each
channel whose hop it completes, before the arbiter is asked (R96, R100); when the pair is not that one there is no
such event (log entries 5 and 6). An IDLE engine takes the first channel with a request after the one last served,
copies its window and is RUNNING; a RUNNING engine, or no request, changes nothing. The window is the 400 samples
up to the request's hop, oldest first: it begins 400 cells and the request's age behind the write position (R96,
R99, R100). That the start leaves the residue of the analysis before is log entry 26. -/
def Obligations.HopsRaiseRequests : Prop :=
  (∀ (s : State) (r : RoomId) (x1 x2 : BitVec 16) (hops : Mic → Prop),
    hops = (fun m => (s.room r).phase = .playing ∧ (s.room r).settings.micParts.get m ≠ .none ∧
      s.engine.table.isSome = true ∧ 319 ≤ ((s.room r).mics.get m).hopCount) →
    (s.link.resetLine = true ∨ (∀ m, ¬hops m) →
      exec (.hopComplete ⟨r, x1, x2⟩) s = .next s.startUplink) ∧
    (s.link.resetLine = false → (∃ m, hops m) →
      ∃ u : State, exec (.hopComplete ⟨r, x1, x2⟩) s = .next u.arbitrate.startUplink ∧
        exec (.samplePair r x1 x2) s = .next u.arbitrate.startUplink ∧
        ∀ m, hops m → ((u.room r).mics.get m).hopCount = 0 ∧
          ((u.room r).mics.get m).request = some ⟨(s.room r).timeline.clock, 0⟩)) ∧
  ∀ s : State,
    (s.engine.current.isSome = true ∨ (∀ c : Channel, (s.channel c).request = none) → s.arbitrate = s) ∧
    ∀ (r : RoomId) (m : Mic) (c : MicChannel) (q : AnalysisRequest), s.engine.current = none →
      c = (s.room r).mics.get m → c.request = some q →
      (∀ d : Channel, (s.channel d).request.isSome = true →
        (channelOf r m - s.engine.lastServed - 1).val ≤ (d - s.engine.lastServed - 1).val) →
      ∃ window : List Int,
        s.arbitrate =
          { s.setRoom r
              { s.room r with mics := (s.room r).mics.set m { c with request := none } } with
            engine := { s.engine with
              current := some ⟨channelOf r m, q.stamp, false, window⟩
              lastServed := channelOf r m } } ∧
        (c.ring.length = 640 → c.writePos < 640 → q.age < 240 → window.length = 400 ∧
          ∀ i < 400, window.getD i 0 = c.ring.getD ((c.writePos + 880 - q.age + i) % 640) 0)

/-- A completing analysis leaves the engine IDLE and the arbiter is asked again; a void one gives no result, and
another hands one on with its channel and stamp: unvoiced when the frame's energy lies below the silence threshold
or 16 times the least difference above V times the energy, and otherwise the note of the refined period of the
smallest lag that attains the least difference: 16 times the lag, and between the ends of the range the offset
num/den rounded to the nearest, halves away from zero, within −8..8 (R101 to R106, R110). In a LOADED table a
period above the first cell lies UNDER, one below the last OVER, and one within a cell is its note (R109). On an
IDLE engine there is no such event (log entry 5). That the energy, the differences and the period stay until such
a result, past a void completion too, is log entry 26. -/
def Obligations.AnalysisCompletes : Prop :=
  (∀ s : State, s.engine.current = none → exec .analysisComplete s = .next s.startUplink) ∧
  (∀ (s : State) (a : Analysis), s.engine.current = some a → a.void = true →
    exec .analysisComplete s = .next
      (({ s with engine := { s.engine with current := none } }).arbitrate).startUplink) ∧
  (∀ (s : State) (a : Analysis) (y : Nat → Int) (d : Nat → Nat) (e lag : Nat) (t : Settings),
    s.engine.current = some a → a.void = false → a.window.length = 400 →
    ∀ a' b' c' den num offset : Int,
    y = (fun i => a.window.getD i 0) → t = (s.room (roomOf a.channel)).settings →
    e = ((List.range 200).map fun i => (y i).natAbs).sum →
    d = (fun l => ((List.range 200).map fun i => (y i - y (i + l)).natAbs).sum) →
    15 ≤ lag → lag ≤ 200 → (∀ l, 15 ≤ l → l ≤ 200 → d lag ≤ d l) →
    (∀ l, 15 ≤ l → l < lag → d lag < d l) →
    a' = d (lag - 1) → b' = d lag → c' = d (lag + 1) → den = a' - 2 * b' + c' → num = 8 * (a' - c') →
    offset = (if lag = 15 ∨ lag = 200 ∨ den ≤ 0 then 0
      else max (-8) (min 8
        (if 0 ≤ num then (2 * num + den) / (2 * den) else -((2 * (-num) + den) / (2 * den))))) →
    ∃ (measured : Option MeasuredNote) (residue : Residue),
      exec .analysisComplete s = .next
        (({ s with
            engine := { s.engine with current := none, residue := some residue }
            handed := s.handed ++ [HandOver.analysis ⟨a.channel, a.stamp, measured⟩] }).arbitrate).startUplink ∧
      (e < t.silenceThreshold ∨ t.voicingFactor * e < 16 * d lag → measured = none) ∧
      (t.silenceThreshold ≤ e → 16 * d lag ≤ t.voicingFactor * e →
        residue = ⟨e, (List.range 186).map fun i => d (15 + i), some (16 * (lag : Int) + offset).toNat⟩ ∧
        measured = some (lookupNote s.engine.table (16 * (lag : Int) + offset).toNat))) ∧
  ∀ (cells : List PitchCell) (lq : Nat), cells.length = 45 → cellsInRange cells = true →
    cellsContiguous cells = true →
    ((cells.getD 0 ⟨0, 0⟩).high < lq → lookupNote (some cells) lq = .under) ∧
    (lq < (cells.getD 44 ⟨0, 0⟩).low → lookupNote (some cells) lq = .over) ∧
    ∀ i < 45, (cells.getD i ⟨0, 0⟩).low ≤ lq → lq ≤ (cells.getD i ⟨0, 0⟩).high →
      lookupNote (some cells) lq = .note (40 + i)

/-- The oldest analysis result handed on is taken. One of a room that is not PLAYING is discarded. In PLAYING it
sets the voiced-run start: none when unvoiced, else the one held or its stamp. With no note of the channel's
singer whose span [start, end) holds its stamp nothing more happens; the first that does is marked seen and its
PENDING onset is judged: NOT_JUDGED with the reference outside 40..84; for a voiced frame that begins a run, GOOD
at or before the note's start plus the window; for a voiced first frame with a run under way, GOOD when the run,
or the singer's previous note's end, lies at or after the start less the window; LATE otherwise; and PENDING still
for an unvoiced frame. A GOOD or LATE is counted with judged until that stands at 65,535, and the frame is graded
when the reference lies in 40..84 and the key grace is over (R118 to R125). The notes of a channel's singer are
those of its part or of BOTH; a channel of part NONE has none (R113, R119). -/
def Obligations.AnalysisResultIsGraded : Prop :=
  ∀ (s : State) (x : AnalysisResult) (older rest : List HandOver) (r : RoomId) (m : Mic),
    (∀ z, HandOver.analysis z ∉ older) → x.channel = channelOf r m →
    ((s.room r).phase ≠ .playing →
      exec .analysisResult { s with handed := older ++ .analysis x :: rest } =
        .next { s with handed := older ++ rest }.startUplink) ∧
    ∀ (y y' : Singer) (part : MicPart) (notes' : List Note) (holds : Note → Prop), (s.room r).phase = .playing →
      y = (s.room r).singers.get m → part = (s.room r).settings.micParts.get m →
      holds = (fun n => n.start ≤ x.stamp ∧ x.stamp < n.stop ∧
        (part = .a ∧ (n.part = .a ∨ n.part = .both) ∨ part = .b ∧ (n.part = .b ∨ n.part = .both))) →
      ((∀ n ∈ (s.room r).melody.notes, ¬holds n) ∧ y' = y ∧
          notes' = (s.room r).melody.notes ∨
        ∃ (before after : List Note) (n : Note) (verdict : Onset) (ref : Int),
          (s.room r).melody.notes = before ++ n :: after ∧
          (∀ k ∈ before, ¬holds k) ∧ holds n ∧
          ref = (n.number : Int) + (s.room r).timeline.keyOffset ∧
          verdict =
            (if n.onset.get m ≠ .pending then n.onset.get m
            else if ref < 40 ∨ 84 < ref then .notJudged
            else if x.measured = none then .pending
            else match y.runStart with
              | none => if x.stamp ≤ n.start + (s.room r).settings.onsetWindow then .good else .late
              | some run =>
                if n.seen.get m = true then .pending
                else if n.start ≤ run + (s.room r).settings.onsetWindow ∨
                    (match part with
                      | .a => n.previousEndA | .b => n.previousEndB | .none => none).any (fun stop =>
                        n.start ≤ stop + (s.room r).settings.onsetWindow) = true then .good
                else .late) ∧
          notes' = before ++
            { n with seen := n.seen.set m true, onset := n.onset.set m verdict } :: after ∧
          y' = (fun z : Singer =>
              if 40 ≤ ref ∧ ref ≤ 84 ∧
                  (s.room r).timeline.keyStamp + (s.room r).settings.keyGrace ≤ x.stamp then
                z.count (gradeOf (s.room r).settings ref x.measured)
              else z)
            (if n.onset.get m ≠ .pending ∨ 65535 ≤ y.judged then y
            else if verdict = .good then { y with judged := y.judged + 1, good := y.good + 1 }
            else if verdict = .late then { y with judged := y.judged + 1, late := y.late + 1 }
            else y)) →
      exec .analysisResult { s with handed := older ++ .analysis x :: rest } = .next
        { s.setRoom r
            { s.room r with
              melody := { (s.room r).melody with notes := notes' }
              singers := (s.room r).singers.set m
                { y' with runStart :=
                  if x.measured = none then none else some (y.runStart.getD x.stamp) } } with
          handed := older ++ rest }.startUplink

/-- A frame's grade: SILENT when unvoiced, MISS when UNDER or OVER, and otherwise HIT, NEAR or MISS by its
deviation from the reference, after the fold by whole octaves, halves toward zero, when it is allowed (R121).
Counting raises G and the grade together until G stands at 65,535 (R122). -/
def Obligations.GradesFollowTheDeviation : Prop :=
  (∀ (t : Settings) (ref : Int) (n : Nat) (o f : Int),
    (if t.octaveAllowance then (n : Int) - ref = 12 * o + f ∧
        (if 0 ≤ (n : Int) - ref then -5 ≤ f ∧ f ≤ 6 else -6 ≤ f ∧ f ≤ 5)
      else f = (n : Int) - ref) →
    gradeOf t ref (some (.note n)) =
      if f.natAbs ≤ t.tolerance then .hit else if f.natAbs = t.tolerance + 1 then .near else .miss) ∧
  (∀ (t : Settings) (ref : Int), gradeOf t ref none = .silent ∧ gradeOf t ref (some .under) = .miss ∧
    gradeOf t ref (some .over) = .miss) ∧
  ∀ (x : Singer) (g : Grade),
    (65535 ≤ x.graded → x.count g = x) ∧
    (x.graded < 65535 → x.count g =
      { x with
        graded := x.graded + 1
        hit := x.hit + if g = .hit then 1 else 0, near := x.near + if g = .near then 1 else 0
        miss := x.miss + if g = .miss then 1 else 0
        silent := x.silent + if g = .silent then 1 else 0 })

/-! ## Handset lines and requests -/

/-- A poll slot begins when the slot timer has run out, and not before (log entries 4 and 5). It starts the timer
again, raises its count modulo 16 and polls one handset: in slot 0 the first OFFLINE one after the discovery
cursor, or with none the first ONLINE one after the slot cursor, and in another slot the other way about. The
cursor used moves there, the slot record opens with the oldest outbox item, and the poll, with the bytes of 11.3,
each sent with even parity and a stop bit (R131), carries the pending answer, which is pending no longer, and that
item (R134, R135). While the reset line is asserted the line is not polled (R20). A window still open is closed
first, as REPLY_WINDOW_CLOSE closes it, and the poll is then that of the line left (log entry 20). -/
def Obligations.PollSlotPollsOneHandset : Prop :=
  ∀ (s : State) (r : RoomId),
    (s.link.resetLine = true ∨ (s.room r).line.slotTimer ≠ 0 → exec (.pollSlot r) s = .next s.startUplink) ∧
    (s.link.resetLine = false → (s.room r).line.slotTimer = 0 → (s.room r).line.slot.isSome = true →
      ∃ t, exec (.replyWindowClose r) s = .next t ∧ t.link.resetLine = false ∧
        (t.room r).line.slotTimer = 0 ∧ (t.room r).line.slot = none ∧
        exec (.pollSlot r) s = exec (.pollSlot r) t) ∧
    ∀ (ln : RequestLine) (h : HandsetId) (probe : Bool) (x : HandsetRecord), s.link.resetLine = false →
      ln = (s.room r).line → ln.slotTimer = 0 → ln.slot = none →
      x = ln.records.get h → x.online = !probe →
      (probe = true → ln.slotCount = 0 ∨ ∀ k : HandsetId, (ln.records.get k).online = false) →
      (probe = false → ln.slotCount ≠ 0 ∨ ∀ k : HandsetId, (ln.records.get k).online = true) →
      (∀ k : HandsetId, (ln.records.get k).online = x.online →
        (h.val + 15 - (if probe then ln.discoveryCursor else ln.slotCursor) % 15) % 15 ≤
          (k.val + 15 - (if probe then ln.discoveryCursor else ln.slotCursor) % 15) % 15) →
      ∀ (b : Nat → List Byte) (answer news payload body : List Byte), b = (fun n => [BitVec.ofNat 8 n]) →
      answer = (match x.answerPending, x.stored with
        | true, some z => [1] ++
          match z.answer with
          | .accepted t place => [1, if z.bit then 1 else 0] ++ b t ++ b place
          | .cancelDone t => [2, if z.bit then 1 else 0] ++ b t
          | .status playing length own => [3, if z.bit then 1 else 0] ++ b (playing.getD 0) ++ b length ++
              b own.length ++ own.flatMap fun w => b w.1 ++ b w.2
          | .refused code => [4, if z.bit then 1 else 0, match code with
              | .badSong => 1 | .roomClosed => 2 | .queueFull => 3 | .duplicate => 4 | .handsetLimit => 5
              | .noTicket => 6 | .notOwner => 7]
        | _, _ => [0]) →
      news = (match x.outbox.head? with
        | some z => [1, match z.kind with
            | .nextUp => 1 | .nowPlaying => 2 | .refusedByServer => 3 | .cancelled => 4] ++ b z.ticket
        | none => [0]) →
      payload = answer ++ news →
      body = b (h.val + 1) ++ [8, 0] ++ b payload.length ++ payload →
      exec (.pollSlot r) s = .next
        (s.setRoom r
          { s.room r with line := { ln with
              slotTimer := 10, slotCount := (ln.slotCount + 1) % 16
              slotCursor := if probe then ln.slotCursor else h.val + 1
              discoveryCursor := if probe then h.val + 1 else ln.discoveryCursor
              slot := some ⟨h, probe, x.outbox.head?, false⟩
              received := []
              records := ln.records.set h { x with answerPending := false }
              sent := (body ++ [body.foldl (· ^^^ ·) 0]).map fun z =>
                ⟨z, z.getLsbD 0 ^^ z.getLsbD 1 ^^ z.getLsbD 2 ^^ z.getLsbD 3 ^^ z.getLsbD 4 ^^ z.getLsbD 5 ^^
                  z.getLsbD 6 ^^ z.getLsbD 7, true⟩ } }).startUplink

/-- A window that closes with no byte received counts a silent poll of an ONLINE handset, and with bytes a
garbled reply; either is a miss for an ONLINE handset, and the slot is idle (R136, R138). The third miss takes the
handset OFFLINE in the same event, its record as R137 gives it, its awaited answers forgotten, HANDSET_CHANGED
raised (R138, R140, R145); HANDSET_OFFLINE names the close that does so (log entry 6). With no slot open, or for
HANDSET_OFFLINE with a close that is no third miss of that handset, there is no such event (log entry 5). -/
def Obligations.MissesTakeAHandsetOffline : Prop :=
  ∀ (s : State) (r : RoomId) (ln : RequestLine), ln = (s.room r).line →
    (s.link.resetLine = true ∨ ln.slot = none →
      exec (.replyWindowClose r) s = .next s.startUplink) ∧
    (∀ h : HandsetId,
      s.link.resetLine = true ∨ (∀ o ∈ ln.slot, o.handset ≠ h) ∨ (ln.records.get h).online = false ∨
          (ln.records.get h).misses < 2 →
      exec (.handsetOffline r h) s = .next s.startUplink) ∧
    ∀ (o : Slot) (x : HandsetRecord) (silent garbled : Nat), s.link.resetLine = false → ln.slot = some o →
      x = ln.records.get o.handset →
      silent = (if ln.received = [] ∧ x.online = true then satInc ln.silent else ln.silent) →
      garbled = (if ln.received = [] then ln.garbled else satInc ln.garbled) →
      (x.online = false ∨ x.misses < 2 →
        exec (.replyWindowClose r) s = .next
          (s.setRoom r
            { s.room r with line := { ln with
                slot := none, received := [], silent := silent, garbled := garbled
                records := ln.records.set o.handset
                  { x with misses := if x.online then x.misses + 1 else x.misses } } }).startUplink) ∧
      (x.online = true → 2 ≤ x.misses →
        ∀ u : State, u = { s.setRoom r
            { s.room r with line := { ln with
                slot := none, received := [], silent := silent, garbled := garbled
                records := ln.records.set o.handset ⟨false, 0, none, none, false, []⟩
                changed := some o.handset } } with
          handed := s.handed.map (HandOver.forget r fun k => decide (k = o.handset))
          link := s.link.hear (s.room r).mask r .handsetChanged } →
        exec (.replyWindowClose r) s = .next u.startUplink ∧
        exec (.handsetOffline r o.handset) s = .next u.startUplink)

/-- Characters outside a window are discarded, and within one they gather, however the events cut them (log entry
21), until a whole reply stands: as many payload bytes as its fourth character, which bears no error, gives, and
five more (R131, R136, R180). A reply is garbled when a character bears an error (an odd number of ones in its
nine bits, no stop bit, an overrun), its check byte is not the exclusive-or of the others, its address is not the
one polled, its sequence byte is neither 0 nor 1, or its kind and payload length are not 0 and 0, 1 and 7, 2 and
1, or 3 and 0, and ungarbled otherwise (R131, R132, R180). A garbled reply is counted and is a miss for an ONLINE
handset, whose third takes it OFFLINE (R138). An ungarbled one clears the misses, takes the news item the poll
carried out of the outbox unless it left before, and brings an OFFLINE handset ONLINE with HANDSET_CHANGED (R139);
then an IDLE does nothing more, and a message with the last accepted bit repeats a stored answer (R140). While the
reset line is asserted nothing is taken (R20). -/
def Obligations.HandsetRepliesAreJudged : Prop :=
  (∀ (s : State) (r : RoomId) (cs : List RxChar) (ln : RequestLine), ln = (s.room r).line →
    (s.link.resetLine = true ∨ ln.slot = none → exec (.handsetReply r cs) s = .next s.startUplink) ∧
    ∀ o : Slot, s.link.resetLine = false → ln.slot = some o →
      (completeReply (ln.received ++ cs) = none →
        exec (.handsetReply r cs) s = .next
          (s.setRoom r { s.room r with line := { ln with received := ln.received ++ cs } }).startUplink) ∧
      ∀ (reply : List RxChar) (x : HandsetRecord), completeReply (ln.received ++ cs) = some reply →
        x = ln.records.get o.handset →
        (judgeReply o.handset reply = none →
          (x.online = false ∨ x.misses < 2 →
            exec (.handsetReply r cs) s = .next
              (s.setRoom r
                { s.room r with line := { ln with
                    slot := none, received := [], garbled := satInc ln.garbled
                    records := ln.records.set o.handset
                      { x with misses := if x.online then x.misses + 1 else x.misses } } }).startUplink) ∧
          (x.online = true → 2 ≤ x.misses →
            exec (.handsetReply r cs) s = .next
              { s.setRoom r
                  { s.room r with line := { ln with
                      slot := none, received := [], garbled := satInc ln.garbled
                      records := ln.records.set o.handset ⟨false, 0, none, none, false, []⟩
                      changed := some o.handset } } with
                handed := s.handed.map (HandOver.forget r fun k => decide (k = o.handset))
                link := s.link.hear (s.room r).mask r .handsetChanged }.startUplink)) ∧
        ∀ (bit : Bool) (m : Message) (y : HandsetRecord), judgeReply o.handset reply = some (bit, m) →
          y = { x with
            misses := 0, online := true
            outbox := if o.news.isSome = true ∧ o.newsGone = false then x.outbox.tail else x.outbox } →
          (m = Message.idle ∨ x.bit = some bit →
            exec (.handsetReply r cs) s = .next
              { s.setRoom r
                  { s.room r with line := { ln with
                      slot := none, received := []
                      records := ln.records.set o.handset
                        { y with
                          answerPending :=
                            if m = Message.idle then y.answerPending else y.answerPending || y.stored.isSome }
                      changed := if x.online then ln.changed else some o.handset } } with
                link := if x.online then s.link
                  else s.link.hear (s.room r).mask r .handsetChanged }.startUplink)) ∧
  ∀ bad : RxChar → Bool,
    bad = (fun c => (c.data.getLsbD 0 ^^ c.data.getLsbD 1 ^^ c.data.getLsbD 2 ^^ c.data.getLsbD 3 ^^
      c.data.getLsbD 4 ^^ c.data.getLsbD 5 ^^ c.data.getLsbD 6 ^^ c.data.getLsbD 7 ^^ c.parity) ||
      !c.stop || c.overrun) →
    -- when a reply is complete
    (∀ cs : List RxChar, cs.length < 4 → completeReply cs = none) ∧
    (∀ (before after : List RxChar) (c : RxChar), before.length = 3 →
      (bad c = true ∨ after.length < c.data.toNat + 1 → completeReply (before ++ c :: after) = none) ∧
      (bad c = false → c.data.toNat + 1 ≤ after.length →
        completeReply (before ++ c :: after) = some (before ++ c :: after.take (c.data.toNat + 1)))) ∧
    -- when it is garbled
    ∀ (h : HandsetId) (reply : List RxChar) (address kind sequence length check : Byte) (payload : List Byte),
      reply.map (·.data) = [address, kind, sequence, length] ++ payload ++ [check] →
      payload.length = length.toNat →
      ((∃ c ∈ reply, bad c = true) ∨
          check ≠ ([address, kind, sequence, length] ++ payload).foldl (· ^^^ ·) 0 ∨
          address.toNat ≠ h.val + 1 ∨ (sequence ≠ 0 ∧ sequence ≠ 1) ∨
          (kind.toNat, payload.length) ∉ [(0, 0), (1, 7), (2, 1), (3, 0)] →
        judgeReply h reply = none) ∧
      ((∀ c ∈ reply, bad c = false) →
        check = ([address, kind, sequence, length] ++ payload).foldl (· ^^^ ·) 0 →
        address.toNat = h.val + 1 → (sequence = 0 ∨ sequence = 1) →
        (kind.toNat, payload.length) ∈ [(0, 0), (1, 7), (2, 1), (3, 0)] →
        ∃ m : Message, judgeReply h reply = some (decide (sequence = 1), m))

/-- A new message takes its bit and drops the stored answer; from an OFFLINE handset, which it brings ONLINE with
HANDSET_CHANGED raised, it is acted on as from another (R139); a REQUEST of a song number in 1..999,999 and a
CANCEL are handed to the queue manager, a REQUEST's priority counting only from handset 15; another REQUEST is
answered BAD_SONG, and a STATUS_ASK with the ticket of the song open, the queue's length and the sender's entries
(R140 to R143). A REQUEST's song number stands in three bytes, its duet, present and priority bytes count as set
when they are not 0, and its preset is a signed byte held within −6..+6, absent when its present byte is 0; a
CANCEL carries its ticket, and IDLE and STATUS_ASK nothing (R132, R141, R180). -/
def Obligations.NewMessagesAreActedOn : Prop :=
  (∀ (s : State) (r : RoomId) (cs reply : List RxChar) (ln : RequestLine) (o : Slot) (x y : HandsetRecord)
    (bit : Bool) (m : Message),
    ln = (s.room r).line → s.link.resetLine = false → ln.slot = some o → x = ln.records.get o.handset →
    x.bit ≠ some bit → completeReply (ln.received ++ cs) = some reply →
    judgeReply o.handset reply = some (bit, m) →
    y = { x with
      misses := 0, online := true, bit := some bit, stored := none, answerPending := false
      outbox := if o.news.isSome = true ∧ o.newsGone = false then x.outbox.tail else x.outbox } →
    ∀ u : HandsetRecord → List HandOver → State,
      u = (fun z more =>
        { s.setRoom r
            { s.room r with line := { ln with
                slot := none, received := [], records := ln.records.set o.handset z
                changed := if x.online then ln.changed else some o.handset } } with
          link := if x.online then s.link else s.link.hear (s.room r).mask r .handsetChanged
          handed := s.handed.map (HandOver.forget r fun k => decide (k = o.handset)) ++ more }) →
      (∀ ticket, m = .cancel ticket →
        exec (.handsetReply r cs) s =
          .next (u y [.cancel ⟨r, o.handset, bit, ticket, true⟩]).startUplink) ∧
      (∀ song duet preset priority, m = .request song duet preset priority →
        (1 ≤ song → song ≤ 999999 →
          exec (.handsetReply r cs) s =
            .next (u y [.request ⟨r, o.handset, bit, song, duet, preset,
              priority && decide (o.handset.val + 1 = 15), true⟩]).startUplink) ∧
        (song = 0 ∨ 999999 < song →
          exec (.handsetReply r cs) s =
            .next (u { y with
              stored := some ⟨.refused .badSong, bit⟩, answerPending := true } []).startUplink)) ∧
      (m = .statusAsk →
        exec (.handsetReply r cs) s =
          .next (u { y with
            stored := some ⟨.status
              (if (s.room r).phase.songOpen then (s.room r).queue.entries.head?.map (·.ticket) else none)
              (s.room r).queue.entries.length
              ((s.room r).queue.entries.zipIdx.filterMap fun e =>
                if e.1.owner = o.handset then some (e.1.ticket, e.2 + 1) else none), bit⟩
            answerPending := true } []).startUplink)) ∧
  -- how an ungarbled reply is read
  ∀ (h : HandsetId) (reply : List RxChar) (address kind sequence length check : Byte) (payload : List Byte),
    reply.map (·.data) = [address, kind, sequence, length] ++ payload ++ [check] →
    (∀ c ∈ reply, c.parity = (c.data.getLsbD 0 ^^ c.data.getLsbD 1 ^^ c.data.getLsbD 2 ^^ c.data.getLsbD 3 ^^
        c.data.getLsbD 4 ^^ c.data.getLsbD 5 ^^ c.data.getLsbD 6 ^^ c.data.getLsbD 7) ∧
      c.stop = true ∧ c.overrun = false) →
    check = ([address, kind, sequence, length] ++ payload).foldl (· ^^^ ·) 0 →
    address.toNat = h.val + 1 → (sequence = 0 ∨ sequence = 1) →
    (kind = 0 → payload = [] → judgeReply h reply = some (decide (sequence = 1), .idle)) ∧
    (∀ song2 song1 song0 duet present preset priority : Byte, kind = 1 →
      payload = [song2, song1, song0, duet, present, preset, priority] →
      judgeReply h reply = some (decide (sequence = 1), .request
        (65536 * song2.toNat + 256 * song1.toNat + song0.toNat) (decide (duet ≠ 0))
        (if present = 0 then none else some (max (-6) (min 6 preset.toInt))) (decide (priority ≠ 0)))) ∧
    (∀ ticket : Byte, kind = 2 → payload = [ticket] →
      judgeReply h reply = some (decide (sequence = 1), .cancel ticket.toNat)) ∧
    (kind = 3 → payload = [] → judgeReply h reply = some (decide (sequence = 1), .statusAsk))

/-- The oldest REQUEST handed on for a room is taken. It is refused by the first check it fails: ROOM_CLOSED,
QUEUE_FULL, DUPLICATE, HANDSET_LIMIT; else it takes the first free ticket from the counter on, and its entry
stands at the end, or with priority behind the last priority entry and an active head, as a queue change, answered
ACCEPTED with ticket and position; the answer is kept, in the same event (log entry 23), for a handset that still
awaits it (R140, R148 to R151). -/
def Obligations.RequestsAreAdmitted : Prop :=
  ∀ (s : State) (x : HandedRequest) (before rest : List HandOver) (es : List Entry),
    (∀ y : HandedRequest, .request y ∈ before → y.room ≠ x.room) →
    es = (s.room x.room).queue.entries →
    ∀ reply : Answer → State → State,
      reply = (fun a t => if x.live = true then
        t.setRoom x.room { t.room x.room with line := { (t.room x.room).line with
          records := (t.room x.room).line.records.set x.sender
            { (t.room x.room).line.records.get x.sender with
              stored := some ⟨a, x.bit⟩, answerPending := true } } } else t) →
      (∀ code : RefusalCode,
        (((s.room x.room).phase = .dark ∧ code = .roomClosed) ∨
          ((s.room x.room).phase ≠ .dark ∧
            (((32 ≤ es.length ∨ 96 ≤ s.entriesUsed) ∧ code = .queueFull) ∨
              (es.length < 32 ∧ s.entriesUsed < 96 ∧
                (((∃ e ∈ es, e.song = x.song) ∧ (s.room x.room).settings.allowRepeats = false ∧
                    code = .duplicate) ∨
                  (((∀ e ∈ es, e.song ≠ x.song) ∨ (s.room x.room).settings.allowRepeats = true) ∧
                    x.sender.val + 1 ≠ 15 ∧
                    (s.room x.room).settings.handsetLimit ≤
                      (es.filter fun e =>
                        e.owner = x.sender && (e.state = .queued || e.state = .offered)).length ∧
                    code = .handsetLimit)))))) →
        exec (.request x.room) { s with handed := before ++ .request x :: rest } =
          .next (reply (.refused code) { s with handed := before ++ rest }).startUplink) ∧
      ∀ ticket p : Nat,
        (s.room x.room).phase ≠ .dark → es.length < 32 → s.entriesUsed < 96 →
        ((∀ e ∈ es, e.song ≠ x.song) ∨ (s.room x.room).settings.allowRepeats = true) →
        (x.sender.val + 1 = 15 ∨
          (es.filter fun e => e.owner = x.sender && (e.state = .queued || e.state = .offered)).length <
            (s.room x.room).settings.handsetLimit) →
        (∀ e ∈ es, e.ticket ≠ ticket) →
        (∃ k < 250, ticket = ((s.room x.room).queue.counter - 1 + k) % 250 + 1 ∧
          ∀ j < k, ∃ e ∈ es, e.ticket = ((s.room x.room).queue.counter - 1 + j) % 250 + 1) →
        1 ≤ (s.room x.room).queue.counter → (s.room x.room).queue.counter ≤ 250 →
        (x.priority = false ∧ p = es.length ∨
          x.priority = true ∧ p ≤ es.length ∧ (∀ e ∈ es.drop p, e.priority = false) ∧
            (∀ e ∈ es.head?, e.state ≠ .queued → 1 ≤ p) ∧
            (∀ i, p = i + 1 → ∃ e, es[i]? = some e ∧
              (e.priority = true ∨ (i = 0 ∧ e.state ≠ .queued)))) →
        exec (.request x.room) { s with handed := before ++ .request x :: rest } =
          .next (reply (.accepted ticket (p + 1))
            ({ s.setRoom x.room
                { s.room x.room with queue := { (s.room x.room).queue with
                    entries := es.take p ++
                      Entry.mk ticket x.song x.sender x.duet x.priority x.preset .queued :: es.drop p
                    counter := ticket % 250 + 1, suspended := false } } with
              handed := before ++ rest
              link := s.link.hear (s.room x.room).mask x.room
                .queueChanged }.offerTrigger x.room)).startUplink

/-- The oldest CANCEL handed on for a room is taken. One of a ticket that no entry holds is refused NO_TICKET, and
one from another handset than the owner and 15 NOT_OWNER; else the entry goes as QUEUE_REMOVE takes it away,
CANCELLED news going to the owner only when another handset cancelled, and the answer is CANCEL_DONE (R152). That
the answer is kept in the same event is log entry 23, and that QUEUE_CHANGED enters before RESULT at an abort is
log entry 12. That the removed entry's news stands before the NEXT_UP of the head then offered is the model's
choice (log entry 12). -/
def Obligations.CancelsRemoveAnEntry : Prop :=
  ∀ (s : State) (x : HandedCancel) (older rest : List HandOver),
    (∀ y : HandedCancel, .cancel y ∈ older → y.room ≠ x.room) →
    ∀ reply : Answer → State → State,
      reply = (fun a t => if x.live = true then
        t.setRoom x.room { t.room x.room with line := { (t.room x.room).line with
          records := (t.room x.room).line.records.set x.sender
            { (t.room x.room).line.records.get x.sender with
              stored := some ⟨a, x.bit⟩, answerPending := true } } } else t) →
      ((∀ e ∈ (s.room x.room).queue.entries, e.ticket ≠ x.ticket) →
        exec (.cancel x.room) { s with handed := older ++ .cancel x :: rest } =
          .next (reply (.refused .noTicket) { s with handed := older ++ rest }).startUplink) ∧
      ∀ (before after : List Entry) (e : Entry) (line : RequestLine),
        (s.room x.room).queue.entries = before ++ e :: after → e.ticket = x.ticket →
        (∀ k ∈ before ++ after, k.ticket ≠ e.ticket) →
        line = (if e.owner = x.sender then (s.room x.room).line
          else (s.room x.room).line.placeNews e.owner ⟨.cancelled, e.ticket⟩) →
        (e.owner ≠ x.sender → x.sender.val + 1 ≠ 15 →
          exec (.cancel x.room) { s with handed := older ++ .cancel x :: rest } =
            .next (reply (.refused .notOwner) { s with handed := older ++ rest }).startUplink) ∧
        (e.owner = x.sender ∨ x.sender.val + 1 = 15 → e.state = .queued ∨ e.state = .offered →
          exec (.cancel x.room) { s with handed := older ++ .cancel x :: rest } =
            .next (reply (.cancelDone x.ticket)
              ({ s.setRoom x.room
                  { s.room x.room with
                    queue := (s.room x.room).queue.afterHead e (before ++ after), line := line } with
                handed := older ++ rest
                link := s.link.hear (s.room x.room).mask x.room
                  .queueChanged }.offerTrigger x.room)).startUplink) ∧
        (e.owner = x.sender ∨ x.sender.val + 1 = 15 → before = [] →
          e.state = .loading ∨ e.state = .playing →
          exec (.cancel x.room) { s with handed := older ++ .cancel x :: rest } =
            .next (reply (.cancelDone x.ticket)
              ({ s.setRoom x.room
                  { (s.room x.room).hushed with
                    phase := .attract, reasons := ⟨false, false⟩, markTimer := .stopped
                    cueTimer := .stopped
                    result := some ⟨e.ticket, e.song, .aborted,
                      ⟨(s.room x.room).singerEntry .mic1, (s.room x.room).singerEntry .mic2⟩⟩
                    lyrics := { (s.room x.room).lyrics with lines := [], lastLoaded := none }
                    melody := ⟨[], none, none, none⟩
                    queue := (s.room x.room).queue.afterHead e after, line := line } with
                engine := s.engine.voided x.room
                handed := older ++ rest
                link := (s.link.hear (s.room x.room).mask x.room .queueChanged).hear
                  (s.room x.room).mask x.room .result }.offerTrigger x.room)).startUplink)

/-- News for an ONLINE handset joins its outbox, whose oldest item a fifth one pushes out, and an OFFLINE
handset gets none (R144). When the item pushed out is the one its open poll carries, the slot notes that it has
gone, so that the reply confirms no other (R139). -/
def Obligations.NewsJoinsTheOutbox : Prop :=
  ∀ (ln : RequestLine) (h : HandsetId) (n : NewsItem) (x : HandsetRecord), x = ln.records.get h →
    (x.online = false → ln.placeNews h n = ln) ∧
    (x.online = true → x.outbox.length < 4 →
      ln.placeNews h n = { ln with records := ln.records.set h { x with outbox := x.outbox ++ [n] } }) ∧
    (x.online = true → 4 ≤ x.outbox.length →
      ln.placeNews h n =
        { ln with
          records := ln.records.set h { x with outbox := x.outbox.tail ++ [n] }
          slot := ln.slot.map fun o =>
            { o with newsGone := if o.handset = h then true else o.newsGone } })

/-! ## What every step keeps -/

/-- The queues of the link keep their bounds and their order, no notice pair waits twice, the pending set is
not empty only with 32 notices queued, the uplink is never idle with something to send (R168, R169, R171), and
in an assertion of the reset line the part stays in its reset state (R20). -/
def Obligations.StepKeepsTheLinkAgreement : Prop :=
  ∀ s t : State, s.link.QueuesAgree → s.link.Busy → s.HeldInReset → step s = .next t →
    t.link.QueuesAgree ∧ t.link.Busy ∧ t.HeldInReset

/-- In every room the reasons, the timers and the head entry agree with the room state, only the head is active,
tickets differ, the line ids differ and their starts do not fall along the list, no room holds more lines,
syllables, notes or entries than one room may, and a DARK room is empty (R1 to R3, R5, R46, R47, R113, R147, R148,
R155). Handset records stay in their ranges, an OFFLINE one is as R137 gives it, and only ONLINE handsets await
answers (R137, R138, R140, R144). -/
def Obligations.StepKeepsTheRoomAgreement : Prop :=
  ∀ s t : State,
    s.EveryRoom (fun rm => rm.ReasonsAgree ∧ rm.TimersAgree ∧ rm.queue.Ordered ∧ rm.HeadAgrees ∧
      rm.WithinLimits ∧ rm.DarkIsEmpty ∧ rm.lyrics.InOrder) →
    s.HandsetsAgree → step s = .next t →
    t.EveryRoom (fun rm => rm.ReasonsAgree ∧ rm.TimersAgree ∧ rm.queue.Ordered ∧ rm.HeadAgrees ∧
      rm.WithinLimits ∧ rm.DarkIsEmpty ∧ rm.lyrics.InOrder) ∧
    t.HandsetsAgree

/-- In every room G is the sum of the grades and judged that of the verdicts, both stopping at 65,535; exactly one
buffer is FRONT, at most one READY, and one FILLING exactly while a frame short of its last segment is gathered,
whose received count is the number of its flags set; each row of lyrics has one occupant at most; a microphone's
staging, ring, hop counter and request stay in their ranges (R93, R94). No request waits at an IDLE engine, and a
RUNNING one serves the channel last served (R99, R100). The pools and the glyph store are not exceeded, and byte
memories keep their form (R40, R46, R51, R79, R81, R113, R122, R125, R147). -/
def Obligations.StepKeepsTheRecords : Prop :=
  ∀ s t : State,
    (s.EveryRoom (fun rm => rm.singers.one.CountsAgree ∧ rm.singers.two.CountsAgree ∧
      rm.video.RolesAgree ∧ rm.video.CountAgrees ∧ rm.video.PicturesWf ∧ rm.lyrics.RowsAgree ∧ rm.lyrics.InOrder ∧
      rm.mics.one.InRange ∧ rm.mics.two.InRange) ∧
      s.EngineAgrees ∧ s.PoolsAgree ∧ s.glyphs.Filled) →
    step s = .next t →
    t.EveryRoom (fun rm => rm.singers.one.CountsAgree ∧ rm.singers.two.CountsAgree ∧
      rm.video.RolesAgree ∧ rm.video.CountAgrees ∧ rm.video.PicturesWf ∧ rm.lyrics.RowsAgree ∧ rm.lyrics.InOrder ∧
      rm.mics.one.InRange ∧ rm.mics.two.InRange) ∧
      t.EngineAgrees ∧ t.PoolsAgree ∧ t.glyphs.Filled

/-- The tempo, accumulator, credits, key offset, detent count, clock and stamp of every timeline stay in their ranges, the
clock at or before the end guard, with the settings and the presets in theirs,
those of requests on their way included, and the clock stays at 0 in CUEING (R1, R16, R22, R28, R36, R141). -/
def Obligations.StepKeepsTheTimelineInRange : Prop :=
  ∀ s t : State, s.EveryRoom Room.ValuesInRange →
    (∀ q, HandOver.request q ∈ s.handed → q.preset.all (fun p => -6 ≤ p && p ≤ 6)) →
    step s = .next t →
    t.EveryRoom Room.ValuesInRange ∧
      ∀ q, HandOver.request q ∈ t.handed → q.preset.all (fun p => -6 ≤ p && p ≤ 6)
end

