-- ==== Sys2Proof/Laws/State.lean ====
section
/-! SUPPORT. The small lemmas of the state: what reading a field gives after each of the updates that the
meanings are built from. -/

namespace Sys2Proof.Machine

/-! ## Pairs of microphones and vectors -/

@[simp] theorem PerMic.get_one {α : Type} (p : PerMic α) : p.get .mic1 = p.one := rfl
@[simp] theorem PerMic.get_two {α : Type} (p : PerMic α) : p.get .mic2 = p.two := rfl

@[simp] theorem PerMic.get_set_self {α : Type} (p : PerMic α) (m : Mic) (v : α) : (p.set m v).get m = v := by
  cases m <;> rfl

theorem PerMic.get_set_of_ne {α : Type} (p : PerMic α) {m n : Mic} (h : n ≠ m) (v : α) :
    (p.set m v).get n = p.get n := by
  cases m <;> cases n <;> first | rfl | exact absurd rfl h

@[simp] theorem PerMic.get_both {α : Type} (p : PerMic α) (f : α → α) (m : Mic) :
    (p.both f).get m = f (p.get m) := by
  cases m <;> rfl

theorem Vector.get_set_self {α : Type} {n : Nat} (v : Vector α n) (i : Fin n) (x : α) :
    (v.set i x).get i = x := by
  simp [Vector.get_eq_getElem]

theorem Vector.get_set_of_ne {α : Type} {n : Nat} (v : Vector α n) {i j : Fin n} (h : j ≠ i) (x : α) :
    (v.set i x).get j = v.get j := by
  have : (i : Nat) ≠ j := fun e => h (Fin.ext e.symm)
  simp [Vector.get_eq_getElem, Vector.getElem_set_ne, this]

/-! ## Rooms -/

@[simp] theorem State.room_setRoom_self (s : State) (r : RoomId) (x : Room) : (s.setRoom r x).room r = x :=
  Vector.get_set_self ..

theorem State.room_setRoom_of_ne (s : State) {r q : RoomId} (h : q ≠ r) (x : Room) :
    (s.setRoom r x).room q = s.room q :=
  Vector.get_set_of_ne _ h _

@[simp] theorem State.setRoom_pending (s : State) (r : RoomId) (x : Room) :
    (s.setRoom r x).pending = s.pending := rfl
@[simp] theorem State.setRoom_onLink (s : State) (r : RoomId) (x : Room) :
    (s.setRoom r x).onLink = s.onLink := rfl
@[simp] theorem State.setRoom_link (s : State) (r : RoomId) (x : Room) : (s.setRoom r x).link = s.link := rfl
@[simp] theorem State.setRoom_glyphs (s : State) (r : RoomId) (x : Room) :
    (s.setRoom r x).glyphs = s.glyphs := rfl
@[simp] theorem State.setRoom_engine (s : State) (r : RoomId) (x : Room) :
    (s.setRoom r x).engine = s.engine := rfl
@[simp] theorem State.setRoom_handed (s : State) (r : RoomId) (x : Room) :
    (s.setRoom r x).handed = s.handed := rfl
@[simp] theorem State.setRoom_cuts (s : State) (r : RoomId) (x : Room) : (s.setRoom r x).cuts = s.cuts := rfl

@[simp] theorem State.room_modRoom_self (s : State) (r : RoomId) (f : Room → Room) :
    (s.modRoom r f).room r = f (s.room r) :=
  State.room_setRoom_self ..

theorem State.room_modRoom_of_ne (s : State) {r q : RoomId} (h : q ≠ r) (f : Room → Room) :
    (s.modRoom r f).room q = s.room q :=
  State.room_setRoom_of_ne _ h _

@[simp] theorem State.modRoom_pending (s : State) (r : RoomId) (f : Room → Room) :
    (s.modRoom r f).pending = s.pending := rfl
@[simp] theorem State.modRoom_onLink (s : State) (r : RoomId) (f : Room → Room) :
    (s.modRoom r f).onLink = s.onLink := rfl
@[simp] theorem State.modRoom_link (s : State) (r : RoomId) (f : Room → Room) :
    (s.modRoom r f).link = s.link := rfl
@[simp] theorem State.modRoom_glyphs (s : State) (r : RoomId) (f : Room → Room) :
    (s.modRoom r f).glyphs = s.glyphs := rfl
@[simp] theorem State.modRoom_engine (s : State) (r : RoomId) (f : Room → Room) :
    (s.modRoom r f).engine = s.engine := rfl
@[simp] theorem State.modRoom_handed (s : State) (r : RoomId) (f : Room → Room) :
    (s.modRoom r f).handed = s.handed := rfl
@[simp] theorem State.modRoom_cuts (s : State) (r : RoomId) (f : Room → Room) :
    (s.modRoom r f).cuts = s.cuts := rfl

/-! ## Hand-overs -/

@[simp] theorem State.hand_pending (s : State) (h : HandOver) : (s.hand h).pending = s.pending := rfl
@[simp] theorem State.hand_onLink (s : State) (h : HandOver) : (s.hand h).onLink = s.onLink := rfl
@[simp] theorem State.hand_link (s : State) (h : HandOver) : (s.hand h).link = s.link := rfl
@[simp] theorem State.hand_rooms (s : State) (h : HandOver) : (s.hand h).rooms = s.rooms := rfl
@[simp] theorem State.hand_room (s : State) (h : HandOver) (r : RoomId) : (s.hand h).room r = s.room r := rfl
@[simp] theorem State.hand_glyphs (s : State) (h : HandOver) : (s.hand h).glyphs = s.glyphs := rfl
@[simp] theorem State.hand_engine (s : State) (h : HandOver) : (s.hand h).engine = s.engine := rfl
@[simp] theorem State.hand_handed (s : State) (h : HandOver) : (s.hand h).handed = s.handed ++ [h] := rfl
@[simp] theorem State.hand_cuts (s : State) (h : HandOver) : (s.hand h).cuts = s.cuts := rfl

@[simp] theorem State.dropHanded_pending (s : State) (which : HandOver → Bool) :
    (s.dropHanded which).pending = s.pending := rfl
@[simp] theorem State.dropHanded_onLink (s : State) (which : HandOver → Bool) :
    (s.dropHanded which).onLink = s.onLink := rfl
@[simp] theorem State.dropHanded_link (s : State) (which : HandOver → Bool) :
    (s.dropHanded which).link = s.link := rfl
@[simp] theorem State.dropHanded_rooms (s : State) (which : HandOver → Bool) :
    (s.dropHanded which).rooms = s.rooms := rfl
@[simp] theorem State.dropHanded_room (s : State) (which : HandOver → Bool) (r : RoomId) :
    (s.dropHanded which).room r = s.room r := rfl
@[simp] theorem State.dropHanded_glyphs (s : State) (which : HandOver → Bool) :
    (s.dropHanded which).glyphs = s.glyphs := rfl
@[simp] theorem State.dropHanded_engine (s : State) (which : HandOver → Bool) :
    (s.dropHanded which).engine = s.engine := rfl
@[simp] theorem State.dropHanded_cuts (s : State) (which : HandOver → Bool) :
    (s.dropHanded which).cuts = s.cuts := rfl
@[simp] theorem State.dropHanded_handed (s : State) (which : HandOver → Bool) :
    (s.dropHanded which).handed = s.handed.filter (fun h => !which h) := rfl

/-! ## The link -/

theorem State.raise_eq (s : State) (r : RoomId) (k : NoticeKind) :
    s.raise r k = { s with link := if (s.room r).mask.allows k then s.link.enter ⟨some r, k⟩ else s.link } := by
  unfold State.raise; split <;> rfl

@[simp] theorem State.raise_pending (s : State) (r : RoomId) (k : NoticeKind) :
    (s.raise r k).pending = s.pending := by
  rw [State.raise_eq]
@[simp] theorem State.raise_onLink (s : State) (r : RoomId) (k : NoticeKind) :
    (s.raise r k).onLink = s.onLink := by
  rw [State.raise_eq]
@[simp] theorem State.raise_rooms (s : State) (r : RoomId) (k : NoticeKind) :
    (s.raise r k).rooms = s.rooms := by
  rw [State.raise_eq]
@[simp] theorem State.raise_room (s : State) (r q : RoomId) (k : NoticeKind) :
    (s.raise r k).room q = s.room q := by
  simp [State.room]
@[simp] theorem State.raise_glyphs (s : State) (r : RoomId) (k : NoticeKind) :
    (s.raise r k).glyphs = s.glyphs := by
  rw [State.raise_eq]
@[simp] theorem State.raise_engine (s : State) (r : RoomId) (k : NoticeKind) :
    (s.raise r k).engine = s.engine := by
  rw [State.raise_eq]
@[simp] theorem State.raise_handed (s : State) (r : RoomId) (k : NoticeKind) :
    (s.raise r k).handed = s.handed := by
  rw [State.raise_eq]
@[simp] theorem State.raise_cuts (s : State) (r : RoomId) (k : NoticeKind) : (s.raise r k).cuts = s.cuts := by
  rw [State.raise_eq]
theorem State.raise_link (s : State) (r : RoomId) (k : NoticeKind) :
    (s.raise r k).link = if (s.room r).mask.allows k then s.link.enter ⟨some r, k⟩ else s.link := by
  rw [State.raise_eq]

@[simp] theorem State.answer_pending (s : State) (x : Result) : (s.answer x).pending = s.pending := rfl
@[simp] theorem State.answer_onLink (s : State) (x : Result) : (s.answer x).onLink = s.onLink := rfl
@[simp] theorem State.answer_link (s : State) (x : Result) : (s.answer x).link = s.link.answer x := rfl
@[simp] theorem State.answer_rooms (s : State) (x : Result) : (s.answer x).rooms = s.rooms := rfl
@[simp] theorem State.answer_room (s : State) (x : Result) (r : RoomId) : (s.answer x).room r = s.room r := rfl
@[simp] theorem State.answer_glyphs (s : State) (x : Result) : (s.answer x).glyphs = s.glyphs := rfl
@[simp] theorem State.answer_engine (s : State) (x : Result) : (s.answer x).engine = s.engine := rfl
@[simp] theorem State.answer_handed (s : State) (x : Result) : (s.answer x).handed = s.handed := rfl
@[simp] theorem State.answer_cuts (s : State) (x : Result) : (s.answer x).cuts = s.cuts := rfl

theorem State.startUplink_eq (s : State) :
    s.startUplink = { s with link := if s.link.mayChoose then s.chosenLink else s.link } := by
  unfold State.startUplink; split <;> rfl

@[simp] theorem State.startUplink_pending (s : State) : s.startUplink.pending = s.pending := by
  rw [State.startUplink_eq]
@[simp] theorem State.startUplink_onLink (s : State) : s.startUplink.onLink = s.onLink := by
  rw [State.startUplink_eq]
@[simp] theorem State.startUplink_rooms (s : State) : s.startUplink.rooms = s.rooms := by
  rw [State.startUplink_eq]
@[simp] theorem State.startUplink_room (s : State) (r : RoomId) : s.startUplink.room r = s.room r := by
  simp [State.room]
@[simp] theorem State.startUplink_glyphs (s : State) : s.startUplink.glyphs = s.glyphs := by
  rw [State.startUplink_eq]
@[simp] theorem State.startUplink_engine (s : State) : s.startUplink.engine = s.engine := by
  rw [State.startUplink_eq]
@[simp] theorem State.startUplink_handed (s : State) : s.startUplink.handed = s.handed := by
  rw [State.startUplink_eq]
@[simp] theorem State.startUplink_cuts (s : State) : s.startUplink.cuts = s.cuts := by
  rw [State.startUplink_eq]

/-- Every command ends with the uplink's choice, so that `exec` always answers a next state (R169). -/
theorem finish_eq (s : State) : finish s = .next s.startUplink := rfl

/-! ## News and queue changes -/

@[simp] theorem State.placeNews_link (s : State) (r : RoomId) (h : HandsetId) (k : NewsKind) (t : Nat) :
    (s.placeNews r h k t).link = s.link := rfl
@[simp] theorem State.placeNews_handed (s : State) (r : RoomId) (h : HandsetId) (k : NewsKind) (t : Nat) :
    (s.placeNews r h k t).handed = s.handed := rfl
@[simp] theorem State.placeNews_engine (s : State) (r : RoomId) (h : HandsetId) (k : NewsKind) (t : Nat) :
    (s.placeNews r h k t).engine = s.engine := rfl
@[simp] theorem State.placeNews_room_self (s : State) (r : RoomId) (h : HandsetId) (k : NewsKind) (t : Nat) :
    (s.placeNews r h k t).room r = { s.room r with line := (s.room r).line.placeNews h ⟨k, t⟩ } :=
  State.room_modRoom_self ..

@[simp] theorem State.removeEntry_link (s : State) (r : RoomId) (e : Entry) :
    (s.removeEntry r e).link = s.link := rfl
@[simp] theorem State.removeEntry_room_self (s : State) (r : RoomId) (e : Entry) :
    (s.removeEntry r e).room r = { s.room r with queue := (s.room r).queue.remove e } :=
  State.room_modRoom_self ..

@[simp] theorem State.noteQueueChange_room_self (s : State) (r : RoomId) :
    (s.noteQueueChange r).room r =
      { s.room r with queue := { (s.room r).queue with suspended := false } } := by
  simp [State.noteQueueChange]

/-! ## Handset records and channels -/

@[simp] theorem State.room_modLine_self (s : State) (r : RoomId) (f : RequestLine → RequestLine) :
    (s.modLine r f).room r = { s.room r with line := f (s.room r).line } :=
  State.room_modRoom_self ..

@[simp] theorem State.modLine_link (s : State) (r : RoomId) (f : RequestLine → RequestLine) :
    (s.modLine r f).link = s.link := rfl
@[simp] theorem State.modLine_handed (s : State) (r : RoomId) (f : RequestLine → RequestLine) :
    (s.modLine r f).handed = s.handed := rfl

@[simp] theorem RequestLine.modRecord_self (ln : RequestLine) (h : HandsetId)
    (f : HandsetRecord → HandsetRecord) : (ln.modRecord h f).records.get h = f (ln.records.get h) :=
  Vector.get_set_self ..

theorem RequestLine.modRecord_of_ne (ln : RequestLine) {h k : HandsetId} (e : k ≠ h)
    (f : HandsetRecord → HandsetRecord) : (ln.modRecord h f).records.get k = ln.records.get k :=
  Vector.get_set_of_ne _ e _

@[simp] theorem roomOf_channelOf (r : RoomId) (m : Mic) : roomOf (channelOf r m) = r := by
  fin_cases r <;> cases m <;> rfl

@[simp] theorem micOf_channelOf (r : RoomId) (m : Mic) : micOf (channelOf r m) = m := by
  fin_cases r <;> cases m <;> rfl

@[simp] theorem State.channel_modChannel_self (s : State) (c : Channel) (f : MicChannel → MicChannel) :
    (s.modChannel c f).channel c = f (s.channel c) := by
  simp [State.channel, State.modChannel]

end Sys2Proof.Machine
end

