-- ==== Sys2Proof/Laws/Ops.lean ====
section
/-! SUPPORT. What each shared operation can do, said once: saturating counters, clamps, hand-overs, notice
events, news, offers, the uplink's choice, and the end of every command. -/

namespace Sys2Proof.Machine

/-! ## Numbers -/

theorem satInc_le (n : Nat) (h : n ≤ Config.counterMax) : satInc n ≤ Config.counterMax := by
  unfold satInc; split <;> omega

theorem le_satInc (n : Nat) : n ≤ satInc n := by
  unfold satInc; split <;> omega

theorem satInc_of_lt {n : Nat} (h : n < Config.counterMax) : satInc n = n + 1 := if_pos h

theorem satInc_of_max {n : Nat} (h : Config.counterMax ≤ n) : satInc n = n := if_neg (by omega)

theorem clampNat_bounds {lo hi : Nat} (h : lo ≤ hi) (n : Nat) : lo ≤ clampNat lo hi n ∧ clampNat lo hi n ≤ hi := by
  unfold clampNat; split <;> [skip; split] <;> omega

theorem clampNat_of_mem {lo hi n : Nat} (h : lo ≤ n) (h' : n ≤ hi) : clampNat lo hi n = n := by
  unfold clampNat; split <;> [skip; split] <;> omega

theorem clampInt_bounds {lo hi : Int} (h : lo ≤ hi) (n : Int) : lo ≤ clampInt lo hi n ∧ clampInt lo hi n ≤ hi := by
  unfold clampInt; split <;> [skip; split] <;> omega

/-! ## Downstream cells (R178) -/

/-- A cell written out on the link is read back from the first of its bytes, and what follows it stays. -/
theorem nextCell_bytes (c : DownCell) (rest : List Byte) (h : c.payload.length < 65536) :
    nextCell (c.bytes ++ rest) = some (c, rest) := by
  have n : 256 * (byteOf (c.payload.length / 256)).toNat + (byteOf c.payload.length).toNat =
      c.payload.length := by
    simp only [byteOf, BitVec.toNat_ofNat]; omega
  simp [DownCell.bytes, be2, nextCell, n]

/-- With fewer than its five header bytes no cell is read. -/
theorem nextCell_short {bs : List Byte} (h : bs.length < 5) : nextCell bs = none := by
  match bs, h with
  | [], _ | [_], _ | [_, _], _ | [_, _, _], _ | [_, _, _, _], _ => rfl

/-- No cell is read exactly when its five header bytes, or the payload they announce, are not all there. -/
theorem nextCell_eq_none {bs : List Byte} : nextCell bs = none ↔ bs.length < 5 ∨ bs.length < 5 + u16 bs 3 := by
  match bs with
  | [] | [_] | [_, _] | [_, _, _] | [_, _, _, _] => simp [nextCell]
  | _ :: _ :: _ :: high :: low :: rest =>
    simp [nextCell, u16, u8]; omega

/-- The bytes on the link outlast a device reset without credit, as in an assertion of the reset line (R164). -/
theorem State.keptOnLink_of_no_credit {s : State} (h : s.link.credit = false) : s.keptOnLink = s.onLink := by
  simp [State.keptOnLink, State.arriving, h]

@[simp] theorem State.deviceReset_onLink (s : State) (cause : ReadyCause) :
    (s.deviceReset cause).onLink = s.keptOnLink := rfl
@[simp] theorem State.resetByCommand_onLink (s : State) : s.resetByCommand.onLink = s.onLink := rfl

/-! ## Hand-overs -/

/-- What `takeFirst` takes is the first item that `f` accepts, and what it leaves is the others. -/
theorem takeFirst_some {α β : Type} {f : α → Option β} {l rest : List α} {y : β}
    (h : takeFirst f l = some (y, rest)) :
    ∃ before x after, l = before ++ x :: after ∧ f x = some y ∧ (∀ z ∈ before, f z = none) ∧
      rest = before ++ after := by
  induction l generalizing rest with
  | nil => simp [takeFirst] at h
  | cons a l ih =>
    unfold takeFirst at h
    split at h
    · rename_i w hw
      obtain ⟨rfl, rfl⟩ : w = y ∧ l = rest := by simpa using h
      exact ⟨[], a, l, rfl, hw, by simp, rfl⟩
    · rename_i hw
      split at h
      · rename_i w tail ht
        obtain ⟨rfl, rfl⟩ : w = y ∧ a :: tail = rest := by simpa using h
        obtain ⟨before, x, after, rfl, hx, hb, rfl⟩ := ih ht
        refine ⟨a :: before, x, after, rfl, hx, fun z hz => ?_, rfl⟩
        rcases List.mem_cons.1 hz with rfl | hz
        · exact hw
        · exact hb z hz
      · simp at h

/-- `takeFirst` takes nothing exactly when `f` accepts no item. -/
theorem takeFirst_none {α β : Type} {f : α → Option β} {l : List α} :
    takeFirst f l = none ↔ ∀ x ∈ l, f x = none := by
  induction l with
  | nil => simp [takeFirst]
  | cons a l ih =>
    unfold takeFirst
    split
    · rename_i hw; simp [hw]
    · rename_i hw
      split
      · rename_i ht
        obtain ⟨before, x, after, rfl, hx, -, -⟩ := takeFirst_some ht
        have hx' : f x ≠ none := by rw [hx]; exact Option.some_ne_none _
        have no : ¬∀ z ∈ a :: (before ++ x :: after), f z = none := fun h => hx' (h x (by simp))
        simp only [reduceCtorEq, no]
      · rename_i ht
        exact ⟨fun _ x hx => (List.mem_cons.1 hx).elim (fun e => e ▸ hw) (ih.1 ht x), fun _ => rfl⟩

/-- The first item that `f` accepts is taken from behind those that it does not. -/
theorem takeFirst_append {α β : Type} {f : α → Option β} {before rest : List α} {x : α} {y : β}
    (hb : ∀ z ∈ before, f z = none) (hx : f x = some y) :
    takeFirst f (before ++ x :: rest) = some (y, before ++ rest) := by
  induction before with
  | nil => simp [takeFirst, hx]
  | cons a l ih =>
    simp [takeFirst, hb a (by simp), ih fun z hz => hb z (by simp [hz])]

/-! ## Displays (R64) -/

@[simp] theorem Display.cutAfter_black (n : Nat) : Display.black.cutAfter n = .black := rfl
@[simp] theorem Display.cutAfter_frame (n : Nat) (x : Snapshot) : (Display.frame x).cutAfter n = .cut x n := rfl

/-- A frame that has ended is not ended again. -/
@[simp] theorem Display.cutAfter_cutAfter (d : Display) (m n : Nat) :
    (d.cutAfter m).cutAfter n = d.cutAfter m := by
  cases d <;> rfl

/-- On a line not yet sent a cut frame is black, and on one already sent it stands. -/
theorem Display.pixel_cutAfter (d : Display) (n x y : Nat) (h : ∀ s k, d ≠ .cut s k) :
    (d.cutAfter n).pixel x y = if y < n then d.pixel x y else .black := by
  cases d with
  | black => simp [Display.pixel]
  | frame s => rfl
  | cut s k => exact absurd rfl (h s k)

/-! ## Notice events (R171) -/

/-- An entering event is merged, joins the queue, or goes to the pending set. -/
theorem Link.enter_cases (p : NoticePair) (l : Link) :
    ((p ∈ l.notices ∨ p ∈ l.pendingPairs) ∧ l.enter p = l) ∨
      (p ∉ l.notices ∧ p ∉ l.pendingPairs ∧ l.notices.length < Config.noticePlaces ∧
        l.enter p = { l with notices := l.notices ++ [p] }) ∨
      (p ∉ l.notices ∧ p ∉ l.pendingPairs ∧ Config.noticePlaces ≤ l.notices.length ∧
        l.enter p = { l with pendingPairs := insertPair p l.pendingPairs }) := by
  unfold Link.enter
  split
  · rename_i h; exact .inl ⟨h, rfl⟩
  · rename_i h
    rw [not_or] at h
    split
    · rename_i h'; exact .inr (.inl ⟨h.1, h.2, h', rfl⟩)
    · rename_i h'; exact .inr (.inr ⟨h.1, h.2, Nat.le_of_not_lt h', rfl⟩)

@[simp] theorem mem_insertPair {p q : NoticePair} {l : List NoticePair} :
    q ∈ insertPair p l ↔ q = p ∨ q ∈ l := by
  induction l with
  | nil => simp [insertPair]
  | cons x l ih =>
    unfold insertPair
    split
    · simp
    · simp only [List.mem_cons, ih]; tauto

/-- A pair whose rank no pending pair has keeps the pending set in its order. -/
theorem insertPair_rising {p : NoticePair} {l : List NoticePair} (h : l.Pairwise fun x y => x.rank < y.rank)
    (hp : ∀ q ∈ l, q.rank ≠ p.rank) : (insertPair p l).Pairwise fun x y => x.rank < y.rank := by
  induction l with
  | nil => simp [insertPair]
  | cons x l ih =>
    obtain ⟨hx, hl⟩ := List.pairwise_cons.1 h
    unfold insertPair
    split
    · rename_i lt
      refine List.pairwise_cons.2 ⟨fun q hq => ?_, h⟩
      rcases List.mem_cons.1 hq with rfl | hq
      · exact lt
      · exact lt.trans (hx q hq)
    · rename_i nlt
      refine List.pairwise_cons.2 ⟨fun q hq => ?_, ih hl fun q hq => hp q (by simp [hq])⟩
      rcases mem_insertPair.1 hq with rfl | hq
      · exact lt_of_le_of_ne (Nat.le_of_not_lt nlt) (hp x (by simp))
      · exact hx q hq

@[simp] theorem Link.enter_results (p : NoticePair) (l : Link) : (l.enter p).results = l.results := by
  unfold Link.enter; split <;> [rfl; (split <;> rfl)]
@[simp] theorem Link.enter_up (p : NoticePair) (l : Link) : (l.enter p).up = l.up := by
  unfold Link.enter; split <;> [rfl; (split <;> rfl)]
@[simp] theorem Link.enter_resetLine (p : NoticePair) (l : Link) : (l.enter p).resetLine = l.resetLine := by
  unfold Link.enter; split <;> [rfl; (split <;> rfl)]
@[simp] theorem Link.enter_transmit (p : NoticePair) (l : Link) : (l.enter p).transmit = l.transmit := by
  unfold Link.enter; split <;> [rfl; (split <;> rfl)]
@[simp] theorem Link.enter_micWaiting (p : NoticePair) (l : Link) : (l.enter p).micWaiting = l.micWaiting := by
  unfold Link.enter; split <;> [rfl; (split <;> rfl)]
@[simp] theorem Link.enter_readyCause (p : NoticePair) (l : Link) : (l.enter p).readyCause = l.readyCause := by
  unfold Link.enter; split <;> [rfl; (split <;> rfl)]

/-! ## News and offers (R144, R156) -/

/-- News for a handset is discarded, joins its outbox, or pushes out the oldest item of a full one, which
an open slot of that handset notes. -/
theorem RequestLine.placeNews_cases (h : HandsetId) (n : NewsItem) (ln : RequestLine) :
    ((ln.records.get h).online = false ∧ ln.placeNews h n = ln) ∨
      ((ln.records.get h).online = true ∧ (ln.records.get h).outbox.length < Config.outboxPlaces ∧
        ln.placeNews h n =
          { ln with
            records := ln.records.set h { ln.records.get h with
              outbox := (ln.records.get h).outbox ++ [n] } }) ∨
      ((ln.records.get h).online = true ∧ Config.outboxPlaces ≤ (ln.records.get h).outbox.length ∧
        ln.placeNews h n =
          { ln with
            records := ln.records.set h { ln.records.get h with
              outbox := (ln.records.get h).outbox.tail ++ [n] }
            slot := ln.slot.map fun o => if o.handset = h then { o with newsGone := true } else o }) := by
  unfold RequestLine.placeNews
  cases ho : (ln.records.get h).online with
  | false => exact .inl ⟨rfl, by simp [ho]⟩
  | true =>
    by_cases hl : (ln.records.get h).outbox.length < Config.outboxPlaces
    · exact .inr (.inl ⟨rfl, hl, by simp [ho, hl]⟩)
    · exact .inr (.inr ⟨rfl, Nat.le_of_not_lt hl, by simp [ho, hl]⟩)

/-- A trigger makes the offer of a QUEUED head of an ATTRACT room whose offers are not suspended, and
otherwise does nothing. -/
theorem State.offerTrigger_cases (r : RoomId) (s : State) :
    (∃ e, (s.room r).phase = .attract ∧ (s.room r).queue.suspended = false ∧
        (s.room r).queue.head? = some e ∧ e.state = .queued ∧ s.offerTrigger r = s.makeOffer r e) ∨
      (¬((s.room r).phase = .attract ∧ (s.room r).queue.suspended = false ∧
          ∃ e, (s.room r).queue.head? = some e ∧ e.state = .queued) ∧ s.offerTrigger r = s) := by
  unfold State.offerTrigger
  by_cases h : (s.room r).phase = .attract ∧ (s.room r).queue.suspended = false
  · simp only [h, and_self, if_true, true_and]
    cases (s.room r).queue.head? with
    | none => exact .inr ⟨by simp, rfl⟩
    | some e =>
      by_cases he : e.state = .queued
      · exact .inl ⟨e, rfl, he, by simp [he]⟩
      · exact .inr ⟨by simp [he], by simp [he]⟩
  · exact .inr ⟨fun x => h ⟨x.1, x.2.1⟩, if_neg h⟩

/-! ## The uplink's choice (R169) -/

/-- What the uplink may choose, in its order: a waiting MIC cell, the head result, the head notice. -/
theorem State.chosenLink_cases (s : State) :
    (∃ c, s.link.nextMic = some c ∧ s.chosenLink = s.link.sendMic c) ∨
      (s.link.nextMic = none ∧ ∃ x xs, s.link.results = x :: xs ∧
        s.chosenLink = { s.link with transmit := some (.result x), results := xs }) ∨
      (s.link.nextMic = none ∧ s.link.results = [] ∧ ∃ p ps, s.link.notices = p :: ps ∧
        s.chosenLink = { s.link.leaveNotice ps with transmit := some (.notice p (s.noticeContent p)) }) ∨
      (s.link.nextMic = none ∧ s.link.results = [] ∧ s.link.notices = [] ∧ s.chosenLink = s.link) := by
  unfold State.chosenLink
  cases h : s.link.nextMic with
  | some c => exact .inl ⟨c, rfl, rfl⟩
  | none =>
    cases h' : s.link.results with
    | cons x xs => exact .inr (.inl ⟨rfl, x, xs, rfl, rfl⟩)
    | nil =>
      cases h'' : s.link.notices with
      | cons p ps => exact .inr (.inr (.inl ⟨rfl, rfl, p, ps, rfl, rfl⟩))
      | nil => exact .inr (.inr (.inr ⟨rfl, rfl, rfl, rfl⟩))

/-! ## Every command -/

/-- Each meaning ends with `finish`: a command always leaves a next state, the uplink having made its
choice. -/
theorem exec_finishes (c : Instr) (s : State) : ∃ u, exec c s = finish u := by
  cases c <;> exact ⟨_, rfl⟩

end Sys2Proof.Machine
end

