-- ==== Sys2Proof/Laws/Commands.lean ====
section
/-! SUPPORT. What the intake does with a control command, said once, and the rooms of states that are
written out: a statement about a command needs no more of the intake than these. -/

namespace Sys2Proof.Machine

/-- A room byte names the room of its number. -/
theorem roomByte_of_val {b : Byte} {r : RoomId} (h : b.toNat = r.val) : roomByte b = some r := by
  unfold roomByte; rw [dif_pos (by omega)]; congr 1; exact Fin.ext h

@[simp] theorem lengthAllowed_none (args : List Byte) : lengthAllowed none args = true := rfl

/-- A room's command of an allowed length, taken under credit, is its effect and then its answer (R166). -/
theorem State.command_room {b tag : Byte} {r : RoomId} {s : State} (k : RoomCommand) {args : List Byte}
    (credit : s.takesCells = true) (room : b.toNat = r.val)
    (length : lengthAllowed k.argBytes args = true) :
    s.command (.room k) b tag args =
      (k.carry r args s).1.answer ⟨tag, b, (k.carry r args s).2, k.code, []⟩ := by
  simp only [State.command, credit, if_true, State.takeCommand, roomByte_of_val room, length]; rfl

/-- A device command of an allowed length, taken under credit, is its effect (R166). -/
theorem State.command_device {tag : Byte} {s : State} (k : DeviceCommand) {args : List Byte}
    (credit : s.takesCells = true) (length : lengthAllowed k.argBytes args = true) :
    s.command (.device k) 15 tag args = k.carry tag args s := by
  simp only [State.command, credit, if_true, State.takeCommand, length]; rfl

/-- The room just set, in a state that is written out. -/
theorem State.room_mk_set (p o l v g e hd n) (r : RoomId) (x : Room) (h) :
    (State.mk p o l (Vector.set v r.val x h) g e hd n).room r = x :=
  State.room_setRoom_self (State.mk p o l v g e hd n) r x

/-- The rooms of a state that is written out with another's rooms. -/
theorem State.room_mk_rooms (s : State) (p o l g e hd n) (r : RoomId) :
    (State.mk p o l s.rooms g e hd n).room r = s.room r := rfl

/-- A room set to what it is. -/
theorem State.rooms_set_room (s : State) (r : RoomId) (h) : s.rooms.set r.val (s.room r) h = s.rooms := by
  simp [State.room, Vector.get_eq_getElem]

/-- The news of a close is placed item by item in the room's line (R160). -/
theorem State.cancelNews_eq (r : RoomId) (es : List Entry) (s : State) :
    s.cancelNews r es =
      s.setRoom r { s.room r with
        line := es.foldl (fun (ln : RequestLine) (e : Entry) => ln.placeNews e.owner ⟨.cancelled, e.ticket⟩)
          (s.room r).line } := by
  unfold State.cancelNews
  induction es generalizing s with
  | nil => exact (congrArg (fun v => { s with rooms := v }) (s.rooms_set_room r r.isLt)).symm
  | cons e es ih =>
    rw [List.foldl_cons, ih]
    simp [State.placeNews, State.modRoom, State.setRoom, State.room_mk_set]

/-- A queue without a ticket is as it was. -/
theorem filter_ticket_of_ne {e : Entry} {es : List Entry} (h : ∀ x ∈ es, x.ticket ≠ e.ticket) :
    es.filter (fun x => x.ticket ≠ e.ticket) = es := by
  rw [List.filter_eq_self]; intro a ha; simpa using h a ha

end Sys2Proof.Machine
end

