-- ==== Sys2Proof/Laws/Memory.lean ====
section
/-! SUPPORT. What the byte memories do: a write keeps the canonical form, gives the bytes written at their
addresses, and leaves every other address alone. -/

namespace Sys2Proof.Machine

/-- A block lists only addresses of its span, with bytes that an unlisted address does not read as. -/
theorem memBlock_mem (u : Nat → Byte) (a : Nat) (bs : List Byte) :
    ∀ c ∈ memBlock u a bs, a ≤ c.1 ∧ c.1 < a + bs.length ∧ c.2 ≠ u c.1 := by
  induction bs generalizing a with
  | nil => simp [memBlock]
  | cons b bs ih =>
    intro c hc
    have tail : c ∈ memBlock u (a + 1) bs → a ≤ c.1 ∧ c.1 < a + (b :: bs).length ∧ c.2 ≠ u c.1 := fun h => by
      have := ih (a + 1) c h
      simp only [List.length_cons]
      exact ⟨by omega, by omega, this.2.2⟩
    unfold memBlock at hc
    split at hc
    · exact tail hc
    · rename_i hb
      rcases List.mem_cons.1 hc with rfl | h
      · exact ⟨Nat.le_refl _, by simp, hb⟩
      · exact tail h

/-- A block lists its addresses rising. -/
theorem memBlock_rising (u : Nat → Byte) (a : Nat) (bs : List Byte) :
    (memBlock u a bs).Pairwise (fun c d => c.1 < d.1) := by
  induction bs generalizing a with
  | nil => exact .nil
  | cons b bs ih =>
    unfold memBlock
    split
    · exact ih _
    · exact List.pairwise_cons.2 ⟨fun c hc => (memBlock_mem u _ _ c hc).1, ih _⟩

/-- A write keeps the canonical form. -/
theorem memWrite_wf {u : Nat → Byte} {m : List Host.Cell} (h : MemWf u m) (a : Nat) (bs : List Byte) :
    MemWf u (memWrite u m a bs) := by
  refine ⟨?_, fun c hc => ?_⟩
  · simp only [memWrite, List.pairwise_append, List.mem_append, List.mem_filter, decide_eq_true_eq]
    refine ⟨⟨h.1.filter _, memBlock_rising u a bs, fun c hc d hd => ?_⟩, h.1.filter _,
      fun c hc d hd => ?_⟩
    · have := (memBlock_mem u a bs d hd).1
      omega
    · rcases hc with hc | hc
      · omega
      · have := (memBlock_mem u a bs c hc).2.1
        omega
  · simp only [memWrite, List.mem_append, List.mem_filter] at hc
    rcases hc with (hc | hc) | hc
    · exact h.2 c hc.1
    · exact (memBlock_mem u a bs c hc).2.2
    · exact h.2 c hc.1

/-- No entry of a list stands at an address that none of them has. -/
theorem lookup_none_of_forall (m : List Host.Cell) (x : Nat) (h : ∀ c ∈ m, c.1 ≠ x) : m.lookup x = none := by
  induction m with
  | nil => rfl
  | cons c m ih =>
    have hc : (x == c.1) = false := by simpa using fun e : x = c.1 => h c (by simp) e.symm
    rw [List.lookup_cons, hc]
    exact ih fun d hd => h d (by simp [hd])

/-- A filter that keeps an address keeps what stands there. -/
theorem lookup_filter (m : List Host.Cell) (p : Nat → Bool) (x : Nat) (hp : p x = true) :
    (m.filter fun c => p c.1).lookup x = m.lookup x := by
  induction m with
  | nil => rfl
  | cons c m ih =>
    by_cases hc : x = c.1
    · subst hc
      rw [List.filter_cons_of_pos (by simpa using hp), List.lookup_cons, List.lookup_cons]
      simp
    · have hx : (x == c.1) = false := by simpa using hc
      rw [List.lookup_cons, hx, List.filter_cons]
      split
      · rw [List.lookup_cons, hx]; exact ih
      · exact ih

/-- An address outside a write reads as it did. -/
theorem memRead_memWrite_outside (u : Nat → Byte) (m : List Host.Cell) (a : Nat) (bs : List Byte) (x : Nat)
    (h : x < a ∨ a + bs.length ≤ x) : memRead u (memWrite u m a bs) x = memRead u m x := by
  have block : (memBlock u a bs).lookup x = none :=
    lookup_none_of_forall _ _ fun c hc => by have := memBlock_mem u a bs c hc; omega
  unfold memRead memWrite
  rw [List.lookup_append, List.lookup_append, block]
  rcases h with h | h
  · rw [lookup_filter m (fun y => decide (y < a)) x (by simpa using h),
      lookup_none_of_forall (m.filter _) x fun c hc => by
        have := (List.mem_filter.1 hc).2
        simp only [decide_eq_true_eq] at this
        omega]
    simp
  · rw [lookup_none_of_forall (m.filter fun c => decide (c.1 < a)) x fun c hc => by
        have := (List.mem_filter.1 hc).2
        simp only [decide_eq_true_eq] at this
        omega,
      lookup_filter m (fun y => decide (a + bs.length ≤ y)) x (by simpa using h)]
    simp

/-- An address of a block reads as its byte. -/
theorem memRead_memBlock (u : Nat → Byte) (a : Nat) (bs : List Byte) (i : Nat) (h : i < bs.length) :
    ((memBlock u a bs).lookup (a + i)).getD (u (a + i)) = bs[i] := by
  induction bs generalizing a i with
  | nil => simp at h
  | cons b bs ih =>
    have later : ∀ x ≤ a, (memBlock u (a + 1) bs).lookup x = none := fun x hx =>
      lookup_none_of_forall _ _ fun c hc => by have := memBlock_mem u (a + 1) bs c hc; omega
    cases i with
    | zero =>
      unfold memBlock
      split
      · rename_i hb; simp [later a (Nat.le_refl _), hb]
      · simp
    | succ i =>
      have hi : i < bs.length := by simpa using h
      have step : ((memBlock u (a + 1) bs).lookup (a + (i + 1))).getD (u (a + (i + 1))) = bs[i] := by
        have := ih (a + 1) i hi
        rwa [show a + 1 + i = a + (i + 1) by omega] at this
      unfold memBlock
      split
      · simpa using step
      · rw [List.lookup_cons, show (a + (i + 1) == a) = false by simp]
        simpa using step

/-- An address of a write reads as the byte written there. -/
theorem memRead_memWrite_inside (u : Nat → Byte) (m : List Host.Cell) (a : Nat) (bs : List Byte) (i : Nat)
    (h : i < bs.length) : memRead u (memWrite u m a bs) (a + i) = bs[i] := by
  have low : (m.filter fun c => decide (c.1 < a)).lookup (a + i) = none :=
    lookup_none_of_forall _ _ fun c hc => by
      have := (List.mem_filter.1 hc).2
      simp only [decide_eq_true_eq] at this
      omega
  have high : (m.filter fun c => decide (a + bs.length ≤ c.1)).lookup (a + i) = none :=
    lookup_none_of_forall _ _ fun c hc => by
      have := (List.mem_filter.1 hc).2
      simp only [decide_eq_true_eq] at this
      omega
  unfold memRead memWrite
  rw [List.lookup_append, List.lookup_append, low, high]
  simpa using memRead_memBlock u a bs i h

end Sys2Proof.Machine
end

