-- ==== Sys2Proof/WellFormed.lean ====
section
/-! DEFINITION. When a command is one the part can meet: the bounds its operands' fields have on the
wire. The finite operands (rooms, channels, handsets) carry their bounds in their types. -/

namespace Sys2Proof

/-- The payload length field of a cell is two bytes wide (11.1). -/
def payloadMax : Nat := 65535

/-- The longest reply its one length byte can announce, five bytes and the payload (R180). -/
def replyMax : Nat := 260

/-- The arguments of a control command leave room for the command code before them (11.2). -/
def argsWf (args : List Byte) : Bool := args.length + 1 ≤ payloadMax

/-- The well-formed commands. -/
def Instr.wf : Instr → Bool
  | .powerOn => true
  | .resetLineAssert => true
  | .resetLineRelease => true
  | .linkDown _ => true
  | .linkUp => true
  | .cellIntake _ => true
  | .video _ => true
  | .timeMark _ => true
  | .deviceReset _ _ args => argsWf args
  | .statusQuery _ _ args => argsWf args
  | .roomOpen _ _ args => argsWf args
  | .roomClose _ _ args => argsWf args
  | .roomReset _ _ args => argsWf args
  | .roomSettings _ _ args => argsWf args
  | .noticeMask _ _ args => argsWf args
  | .bandTable _ _ args => argsWf args
  | .palette _ _ args => argsWf args
  | .glyphLoad _ _ args => argsWf args
  | .glyphClear _ _ args => argsWf args
  | .pitchCells _ _ args => argsWf args
  | .lyricLine _ _ args => argsWf args
  | .noteEvents _ _ args => argsWf args
  | .songOpen _ _ args => argsWf args
  | .songRefuse _ _ args => argsWf args
  | .songStart _ _ args => argsWf args
  | .songEnd _ _ args => argsWf args
  | .pause _ _ args => argsWf args
  | .resume _ _ args => argsWf args
  | .skip _ _ args => argsWf args
  | .setTempo _ _ args => argsWf args
  | .offerPoll _ _ args => argsWf args
  | .queueRemove _ _ args => argsWf args
  | .queueMove _ _ args => argsWf args
  | .timelineTick _ _ _ => true
  | .keyDetent _ => true
  | .endGuard _ => true
  | .evaluation _ => true
  | .pass _ => true
  | .markTimerExpiry _ => true
  | .cueTimerExpiry _ => true
  | .resultHoldExpiry _ => true
  | .videoStaleExpiry _ => true
  | .offerTimerExpiry _ => true
  | .frameCompletion _ => true
  | .outputFrameStart _ => true
  | .samplePair _ _ _ => true
  | .micCellComplete _ => true
  | .hopComplete _ => true
  | .requestExpiry _ => true
  | .analysisComplete => true
  | .analysisResult => true
  | .pollSlot _ => true
  | .replyWindowClose _ => true
  | .handsetReply _ chars => chars.length ≤ replyMax
  | .handsetOffline _ _ => true
  | .request _ => true
  | .cancel _ => true
  | .uplinkFree => true

end Sys2Proof
end

