-- ==== Sys2Proof/Tests/Slice0.lean ====
section
/-! SUPPORT. Our own tests: ill-formed commands that `Instr.wf` refuses, one or two steps of each command
with the values the spec's worked sequences and rules give, and for every statement with hypotheses a named
witness that they can be met. -/

namespace Sys2Proof.Tests

open Sys2Proof.Machine

/-! ## Small states -/

/-- What a step of `exec` leaves, seen through `f`; none when it ends in no next state. -/
def sees {α : Type} (s : State) (c : Instr) (f : State → α) : Option α :=
  match exec c s with
  | .next t => some (f t)
  | .fault _ => none
  | .refused _ => none

/-- The part with the link UP and nothing to send. -/
def up : State := { State.reset with link := Link.start true false .none }

/-- The part with its reset line asserted and the link UP. -/
def held : State := { State.reset with link := Link.start true true .resetLine }

/-- The status of the result in the transmit register. -/
def status (s : State) : Option Status :=
  match s.link.transmit with
  | some (.result x) => some x.status
  | _ => none

/-- The bytes in the transmit register. -/
def sending (s : State) : List Byte :=
  match s.link.transmit with
  | some x => x.bytes
  | none => []

/-- The kinds of a room's waiting notices. -/
def kinds (s : State) : List NoticeKind := s.link.notices.map (·.kind)

/-- An entry for song 100. -/
def entry (ticket : Nat) (owner : HandsetId) (st : EntryState) : Entry :=
  ⟨ticket, 100, owner, false, false, none, st⟩

/-- A queue of entries, the offer timer running when its head is OFFERED. -/
def queueOf (es : List Entry) : RequestQueue :=
  { RequestQueue.start with
    entries := es
    offerTimer := if es.head?.any (·.state = .offered) then .running 5000 else .stopped }

/-- An open room in a state, with a queue. -/
def roomIn (p : Phase) (es : List Entry) : Room :=
  { Room.start with phase := p, staleTimer := .running 2000, queue := queueOf es }

/-- A room that plays a song of 215,000 song ms at a clock. -/
def playing (clock : Nat) : Room :=
  { roomIn .playing [entry 1 3 .playing] with
    markTimer := .running 400
    timeline := { Timeline.start with clock := clock, songLength := some 215000 } }

/-- A room held in PAUSED. -/
def paused (clock : Nat) (why : PauseReasons) : Room :=
  { playing clock with phase := .paused, reasons := why, markTimer := .stopped }

/-- A room with its song opened. -/
def cueing : Room :=
  { roomIn .cueing [entry 1 3 .loading] with
    cueTimer := .running 10000
    timeline := { Timeline.start with songLength := some 215000 } }

/-- A room whose song has ended. -/
def ended : Room :=
  { roomIn .result [] with holdTimer := .running 8000, staleTimer := .suspended 500 }

/-- The part with a room. -/
def part (r : RoomId) (x : Room) : State := up.setRoom r x

/-- The part with a room and something handed on. -/
def partWith (r : RoomId) (x : Room) (h : HandOver) : State := { part r x with handed := [h] }

/-- A table of 45 cells, note 40 from 4,000 down to 3,921 and so on. -/
def cells45 : List PitchCell := (List.range 45).map fun i => ⟨3921 - 80 * i, 4000 - 80 * i⟩

/-- A character received without error. -/
def char (b : Byte) : RxChar :=
  ⟨b, (List.range 8).foldl (fun p i => p ^^ b.getLsbD i) false, true, false⟩

/-! ## Ill-formed commands (R178, R180) -/

theorem test_wf_args_too_long : (Instr.palette 0 0 (List.replicate 65535 0)).wf = false := by
  simp only [Instr.wf, argsWf, List.length_replicate]; decide

theorem test_wf_reply_too_long : (Instr.handsetReply 0 (List.replicate 261 (char 0))).wf = false := by
  simp only [Instr.wf, List.length_replicate]; decide

theorem test_wf_accepts :
    (Instr.pause 2 7 []).wf = true ∧ (Instr.cellIntake [3, 2]).wf = true ∧
      (Instr.handsetReply 0 [char 9]).wf = true := by decide

/-- No row of the opcode table gives bits, so no word spells a command. -/
theorem test_no_word_decodes : decodeTableWord 16 68 = none ∧ State.reset.withFetchWord 16 68 = State.reset :=
  ⟨rfl, rfl⟩

/-! ## Power, reset line and link (R19 to R21, R175, R176) -/

theorem test_power_on_ready :
    sees (part 1 (playing 9)) .powerOn (fun t => ((t.room 1).phase, sending t)) =
      some (.dark, [11, 15, 0, 0, 2, 1, 1]) := by decide

theorem test_reset_assert_is_silent :
    sees (part 1 (playing 9)) .resetLineAssert (fun t => ((t.room 1).phase, t.link.notices, sending t)) =
      some (.dark, [], []) := by decide

theorem test_reset_release_ready :
    sees held .resetLineRelease (fun t => (t.link.readyCause, sending t)) =
      some (.resetLine, [11, 15, 0, 0, 2, 1, 2]) := by decide

/-- A cell in arrival is gone with a reset (R19), so the next cell is read from its own first byte; bytes that wait
in an assertion stay. -/
theorem test_reset_leaves_no_cell_in_arrival :
    sees { up with onLink := [3, 2, 5, 0] } .resetLineAssert State.onLink = some [] ∧
    sees { up with onLink := [3, 2, 5, 0] } .powerOn State.onLink = some [] ∧
    sees { held with onLink := [3, 2, 5, 0] } .resetLineRelease State.onLink = some [3, 2, 5, 0] := by decide

/-- What follows DEVICE_RESET on the link arrives after the reset (R177). -/
theorem test_device_reset_keeps_what_follows :
    sees up (.cellIntake [3, 15, 5, 0, 1, 1, 3, 2, 6]) (fun t => (t.link.readyCause, t.onLink)) =
      some (.resetCommand, [3, 2, 6]) := by decide

theorem test_link_down_counts_cut_off_cell :
    sees { up with onLink := [3, 2, 5, 0] } (.linkDown [2, 16])
      (fun t => (t.link.up, t.link.cellsDiscarded, t.onLink)) = some (false, 1, []) := by decide

theorem test_link_down_leaves_whole_cell :
    sees { up with onLink := [3, 2, 5, 0] } (.linkDown [1, 16])
      (fun t => (t.link.up, t.link.cellsDiscarded, t.onLink)) = some (false, 0, [3, 2, 5, 0, 1, 16]) := by decide

theorem test_link_up_ready_cause_none :
    sees { up with link := { up.link with up := false } } .linkUp sending =
      some [11, 15, 0, 0, 2, 1, 0] := by decide

theorem test_link_up_ready_waits_already :
    sees State.reset .linkUp (fun t => (sending t, t.link.notices)) =
      some ([11, 15, 0, 0, 2, 1, 1], []) := by decide

theorem test_uplink_result_before_notice :
    sees { up with link := { up.link with
      results := [⟨5, 2, .ok, 68, []⟩], notices := [⟨some 2, .paused⟩] } } .uplinkFree
      (fun t => (sending t, kinds t)) = some ([10, 2, 5, 0, 2, 0, 68], [.paused]) := by decide

theorem test_uplink_mic_in_turn :
    sees { up with link := { up.link with
      lastSent := 6
      micWaiting := (Vector.replicate 8 none).set 6 (some ⟨9, []⟩) |>.set 1 (some ⟨4, []⟩) } } .uplinkFree
      (fun t => (t.link.lastSent, (t.link.micWaiting.get 6).isSome)) = some (1, true) := by decide

/-! ## The intake (R165, R166, R178) -/

/-- The bytes behind the cell's one payload byte begin the next cell. -/
theorem test_intake_control :
    sees up (.cellIntake [3, 2, 5, 0, 1, 16, 1, 0]) (fun t => ((t.room 2).phase, sending t, t.onLink)) =
      some (.attract, [10, 2, 5, 0, 2, 0, 16], [1, 0]) := by decide

theorem test_intake_waits_without_credit :
    sees { up with link := { up.link with up := false } } (.cellIntake [3, 2, 5, 0, 1, 16])
      (fun t => ((t.room 2).phase, t.onLink)) = some (.dark, [3, 2, 5, 0, 1, 16]) := by decide

/-! ## Device and room commands -/

theorem test_device_reset :
    sees (part 2 (playing 9)) (.deviceReset 15 5 []) (fun t => ((t.room 2).phase, sending t)) =
      some (.dark, [11, 15, 0, 0, 2, 1, 3]) := by decide

theorem test_device_reset_bad_room : sees up (.deviceReset 0 5 []) status = some (some .badRoom) := by decide

theorem test_status_query_length :
    sees up (.statusQuery 15 5 []) (fun t => (sending t).length) = some (5 + 2 + 568) := by decide +kernel

/-- The first event of the worked sequence of room 2 in 1.8. -/
theorem test_room_open :
    sees up (.roomOpen 2 5 []) (fun t => ((t.room 2).phase, (t.room 2).staleTimer, status t)) =
      some (.attract, .running 2000, some .ok) := by decide

theorem test_room_open_busy :
    sees (part 2 (roomIn .result [])) (.roomOpen 2 5 []) (fun t => ((t.room 2).phase, status t)) =
      some (.result, some .busy) := by decide

theorem test_room_close :
    sees (part 2 (playing 900)) (.roomClose 2 5 [])
      (fun t => ((t.room 2).phase, (t.room 2).queue.entries, (t.room 2).timeline.clock, kinds t)) =
      some (.dark, [], 0, [.queueChanged]) := by decide

theorem test_room_close_keeps_settings :
    sees (part 2 { playing 900 with settings := { Settings.default with preroll := 700 } }) (.roomClose 2 5 [])
      (fun t => (t.room 2).settings.preroll) = some 700 := by decide

theorem test_room_reset_defaults :
    sees (part 2 { playing 900 with settings := { Settings.default with preroll := 700 } }) (.roomReset 2 5 [])
      (fun t => ((t.room 2).phase, (t.room 2).settings.preroll)) = some (.dark, 2000) := by decide

/-- A settings payload with preroll 2,100, W_on 250, mic parts B and NONE, limit 4, tempo 100. -/
def settingsArgs : List Byte :=
  [0, 8, 52, 1, 244, 8, 5, 10, 1, 144, 1, 1, 0, 0, 15, 160, 5, 250, 0, 200, 2, 0, 0, 4, 100, 0, 48]

/-- A W_on byte of 250 is clamped to 200 (R179). -/
theorem test_settings_clamped :
    sees up (.roomSettings 1 5 settingsArgs)
      (fun t => ((t.room 1).settings.preroll, (t.room 1).settings.onsetWindow, status t)) =
      some (2100, 200, some .okClamped) := by decide

theorem test_settings_parts_kept :
    sees (part 1 (playing 0)) (.roomSettings 1 5 settingsArgs) (fun t => (t.room 1).settings.micParts) =
      some ⟨.a, .b⟩ := by decide

theorem test_mask_offer_stays :
    sees up (.noticeMask 1 5 [0, 1, 1, 1, 0, 1, 1, 1, 1, 1, 1, 1])
      (fun t => ((t.room 1).mask.offer, (t.room 1).mask.paused, status t)) =
      some (true, false, some .okClamped) := by decide

theorem test_mask_bad_flag :
    sees up (.noticeMask 1 5 [1, 1, 1, 1, 2, 1, 1, 1, 1, 1, 1, 1]) status = some (some .badRecord) := by decide

/-- Table X of the worked example of chapter 4: one entry of height 900. -/
theorem test_band_table_pending :
    sees up (.bandTable 0 5 [1, 3, 132, 0, 0, 0, 0, 0, 15])
      (fun t => ((t.room 0).compositor.slot.map (·.map (·.height)), (t.room 0).compositor.active.length,
        status t)) = some (some [720], 5, some .okClamped) := by decide

theorem test_palette_nine_colours :
    sees up (.palette 0 5 (List.replicate 27 9)) (fun t => ((t.room 0).compositor.palette.banner, status t)) =
      some (.black, some .badRecord) := by decide

/-- The last load of the worked sequence of chapter 3: code 65 again, width 26, at fill pointer 2,160. -/
theorem test_glyph_load_replaces :
    sees { up with glyphs := ⟨[(65, ⟨0, 24⟩), (66, ⟨960, 30⟩)], [], 2160⟩ }
      (.glyphLoad 15 5 ([0, 65, 26] ++ List.replicate 260 0))
      (fun t => (t.glyphs.entry 65, t.glyphs.entry 66, t.glyphs.fill, status t)) =
      some (some ⟨2160, 26⟩, some ⟨960, 30⟩, 3200, some .ok) := by decide +kernel

/-- Code 67 of width 50 is refused. -/
theorem test_glyph_load_too_wide :
    sees up (.glyphLoad 15 5 [0, 67, 50]) (fun t => (t.glyphs.entry 67, status t)) =
      some (none, some .badRecord) := by decide

/-- Line 205 of the worked sequence of chapter 3, in a display state. -/
def line205 (st : LineState) : Line :=
  { id := 205, row := 1, part := .a, start := 42000, stop := 45600
    glyphs := [0, 1, 2, 3, 4, 5, 6, 7, 8]
    syllables := [⟨0, 3, 42000, 600⟩, ⟨3, 2, 42600, 900⟩, ⟨5, 4, 43500, 2100⟩], state := st }

theorem test_glyph_clear_busy :
    sees (part 3 { playing 43000 with lyrics := ⟨[line205 .singing], none, none⟩ }) (.glyphClear 15 5 []) status =
      some (some .busy) := by decide

theorem test_glyph_clear_empties :
    sees { up with glyphs := ⟨[(65, ⟨0, 24⟩)], [], 960⟩ } (.glyphClear 15 5 [])
      (fun t => (t.glyphs.entry 65, t.glyphs.fill)) = some (none, 0) := by decide

theorem test_pitch_cells_loaded :
    sees up (.pitchCells 15 5 (cells45.flatMap fun c => be2 c.low ++ be2 c.high))
      (fun t => (t.engine.table.map (·.length), status t)) = some (some 45, some .ok) := by decide +kernel

/-- 44 pairs (the worked sequence of 6.6). -/
theorem test_pitch_cells_44 :
    sees up (.pitchCells 15 5 (List.replicate 176 1)) (fun t => (t.engine.table, status t)) =
      some (none, some .badTable) := by decide +kernel

/-! ## Songs -/

/-- The LYRIC_LINE payload of line 205 with syllable 2's duration 2,400. -/
def line205Args : List Byte :=
  [0, 205, 1, 1] ++ be4 42000 ++ be4 45600 ++ [9, 3] ++ ([0, 1, 2, 3, 4, 5, 6, 7, 8] : List Nat).flatMap be2
    ++ [0, 3] ++ be4 42000 ++ be2 600 ++ [3, 2] ++ be4 42600 ++ be2 900 ++ [5, 4] ++ be4 43500 ++ be2 2400

/-- The worked sequence of chapter 3: accepted with syllable 2 clamped to 2,100, and LOADED at 38,000. -/
theorem test_lyric_line_clamped :
    sees (part 3 (playing 38000)) (.lyricLine 3 5 line205Args)
      (fun t => ((t.room 3).lyrics.lines, (t.room 3).lyrics.lastLoaded, status t)) =
      some ([line205 .loaded], some ⟨205, 42000⟩, some .okClamped) := by decide +kernel

theorem test_lyric_line_locked :
    sees (part 3 { playing 43000 with lyrics := ⟨[line205 .singing], none, none⟩ })
      (.lyricLine 3 5 line205Args) status = some (some .locked) := by decide +kernel

/-- One NOTE_EVENTS event. -/
def noteArgs (start stop : Nat) (note part : Byte) : List Byte := be4 start ++ be4 stop ++ [note, part]

/-- Cell 1 of the worked sequence of chapter 7. -/
theorem test_note_events_records :
    sees (part 0 cueing)
      (.noteEvents 0 5 ([3] ++ noteArgs 4000 4500 60 1 ++ noteArgs 4200 5200 55 2 ++ noteArgs 4500 5000 62 1))
      (fun t => ((t.room 0).melody.lastStart, (t.room 0).melody.lastEndA, (t.room 0).melody.lastEndB,
        (t.room 0).melody.notes.map (·.previousEndB))) =
      some (some 4500, some 5000, some 5200, [none, none, some 5200]) := by decide +kernel

/-- Cell 2: singer B's last end lies behind the event's start. -/
theorem test_note_events_order :
    sees (part 0 { cueing with melody := ⟨[], some 4500, some 5000, some 5200⟩ })
      (.noteEvents 0 5 ([1] ++ noteArgs 5000 5600 64 3)) status = some (some .order) := by decide

/-- SONG_OPEN of ticket 1 in the worked sequence of 1.8. -/
theorem test_song_open :
    sees (part 2 (roomIn .attract [entry 1 3 .offered])) (.songOpen 2 5 ([1] ++ be4 215000 ++ [100]))
      (fun t => ((t.room 2).phase, (t.room 2).cueTimer, (t.room 2).queue.entries.map (·.state),
        (t.room 2).queue.offerTimer, status t)) =
      some (.cueing, .running 10000, [.loading], .stopped, some .ok) := by decide

/-- The cancelled ticket of the worked sequence of chapter 9. -/
theorem test_song_open_stale :
    sees (part 1 (roomIn .attract [entry 8 4 .offered])) (.songOpen 1 5 ([7] ++ be4 190000 ++ [0])) status =
      some (some .stale) := by decide

theorem test_song_refuse :
    sees (part 1 (roomIn .result [entry 8 4 .queued, entry 9 4 .queued])) (.songRefuse 1 5 [8, 77])
      (fun t => ((t.room 1).queue.entries.map (·.ticket), kinds t, status t)) =
      some ([9], [.queueChanged], some .ok) := by decide

theorem test_song_refuse_playing_stale :
    sees (part 1 (playing 0)) (.songRefuse 1 5 [1, 0]) status = some (some .stale) := by decide

/-- SONG_START at position 0 in the worked sequence of 1.8. -/
theorem test_song_start :
    sees (part 2 cueing) (.songStart 2 5 (be4 0))
      (fun t => ((t.room 2).phase, (t.room 2).markTimer, (t.room 2).queue.entries.map (·.state), kinds t)) =
      some (.playing, .running 400, [.playing], [.songStarted]) := by decide

theorem test_song_start_clamped :
    sees (part 2 cueing) (.songStart 2 5 (be4 215001)) (fun t => ((t.room 2).timeline.clock, status t)) =
      some (215000, some .okClamped) := by decide

/-- SONG_END at 250 s in the worked sequence of 1.8. -/
theorem test_song_end :
    sees (part 2 (paused 215300 ⟨true, false⟩)) (.songEnd 2 5 [])
      (fun t => ((t.room 2).phase, (t.room 2).reasons, (t.room 2).holdTimer, (t.room 2).staleTimer,
        kinds t)) =
      some (.result, ⟨false, false⟩, .running 8000, .suspended 2000, [.queueChanged, .result]) := by decide

/-- The counters of channel 4 at the end of the song in 7.8. -/
def channel4 : Singer := ⟨1500, 1100, 250, 100, 50, 96, 14, 10, 120, none⟩

/-- Its scores: 81.6, 80.0 and 81.1; channel 5 is NOT_SCORED. -/
theorem test_song_end_scores :
    sees (part 2 { playing 0 with singers := ⟨channel4, Singer.start⟩ }) (.songEnd 2 5 [])
      (fun t => (t.room 2).result.map fun x =>
        ((x.singers.one.pitch, x.singers.one.timing, x.singers.one.final), x.singers.two.notScored)) =
      some (some ((816, 800, 811), true)) := by decide

theorem test_pause :
    sees (part 2 (playing 5)) (.pause 2 5 [])
      (fun t => ((t.room 2).phase, (t.room 2).reasons, (t.room 2).markTimer, kinds t)) =
      some (.paused, ⟨false, true⟩, .stopped, [.paused]) := by decide

/-- PAUSE at 71.0 s in the worked sequence of 1.8: STAFF is added with no notice. -/
theorem test_pause_again :
    sees (part 2 (paused 64350 ⟨true, false⟩)) (.pause 2 5 [])
      (fun t => ((t.room 2).reasons, kinds t, status t)) = some (⟨true, true⟩, [], some .ok) := by decide

/-- RESUME at 90 s in the worked sequence of 1.8. -/
theorem test_resume :
    sees (part 2 (paused 64350 ⟨false, true⟩)) (.resume 2 5 [])
      (fun t => ((t.room 2).phase, (t.room 2).timeline.clock, (t.room 2).markTimer, kinds t)) =
      some (.playing, 64350, .running 400, [.resumed]) := by decide

theorem test_resume_stays_stalled :
    sees (part 2 (paused 64350 ⟨true, true⟩)) (.resume 2 5 [])
      (fun t => ((t.room 2).phase, (t.room 2).reasons)) = some (.paused, ⟨true, false⟩) := by decide

theorem test_skip_offers_next :
    sees (part 1 { playing 700 with queue := queueOf [entry 7 1 .playing, entry 8 4 .queued] }) (.skip 1 5 [])
      (fun t => ((t.room 1).phase, (t.room 1).queue.entries.map (·.state), (t.room 1).result.map (·.outcome),
        kinds t)) =
      some (.attract, [.offered], some .aborted, [.queueChanged, .result, .offer]) := by decide

theorem test_skip_busy : sees (part 1 ended) (.skip 1 5 []) status = some (some .busy) := by decide

/-- A tempo byte of 1..79 is clamped to 80 (R179). -/
theorem test_set_tempo_clamped :
    sees (part 1 (playing 20011)) (.setTempo 1 5 [79]) (fun t => ((t.room 1).timeline.tempo, status t)) =
      some (80, some .okClamped) := by decide

theorem test_set_tempo_busy :
    sees (part 1 ended) (.setTempo 1 5 [90]) (fun t => ((t.room 1).timeline.tempo, status t)) =
      some (100, some .busy) := by decide

/-! ## The queue (chapter 9) -/

theorem test_offer_poll_after_lapse :
    sees (part 0 { roomIn .attract [entry 20 2 .queued] with
      queue := ⟨[entry 20 2 .queued], 21, .stopped, true, some 20⟩ }) (.offerPoll 0 5 [])
      (fun t => ((t.room 0).queue.entries.map (·.state), (t.room 0).queue.offerTimer, kinds t)) =
      some ([.offered], .running 5000, [.offer]) := by decide

theorem test_offer_poll_repeats :
    sees (part 0 { roomIn .attract [entry 20 2 .offered] with
      queue := ⟨[entry 20 2 .offered], 21, .running 70, false, none⟩ }) (.offerPoll 0 5 [])
      (fun t => ((t.room 0).queue.offerTimer, kinds t, status t)) =
      some (.running 70, [.offer], some .ok) := by decide

theorem test_queue_remove_offered :
    sees (part 1 (roomIn .attract [entry 7 1 .offered, entry 8 4 .queued])) (.queueRemove 1 5 [7])
      (fun t => ((t.room 1).queue.entries.map fun e => (e.ticket, e.state), status t)) =
      some ([(8, .offered)], some .ok) := by decide

theorem test_queue_remove_stale : sees up (.queueRemove 1 5 [7]) status = some (some .stale) := by decide

/-- A target of 0 is clamped to the lowest position, 2 behind a PLAYING head (R154, R179). -/
theorem test_queue_move_lowest :
    sees (part 3 { playing 0 with queue := queueOf [entry 40 3 .playing, entry 41 4 .queued, entry 42 5 .queued] })
      (.queueMove 3 5 [42, 0]) (fun t => ((t.room 3).queue.entries.map (·.ticket), status t)) =
      some ([40, 42, 41], some .okClamped) := by decide

theorem test_queue_move_locked :
    sees (part 3 (playing 0)) (.queueMove 3 5 [1, 1]) status = some (some .locked) := by decide

/-! ## The timeline (chapter 2) -/

/-- Tick 10 at tempo 110. -/
theorem test_tick_two_advances :
    sees (part 1 { playing 20009 with timeline := { (playing 20009).timeline with tempo := 110, accumulator := 90 } })
      (.timelineTick 1 false false)
      (fun t => ((t.room 1).timeline.accumulator, (t.room 1).timeline.clock, t.handed)) =
      some (0, 20011, [.toGuard 1 20011, .toScore 1 20011, .toLyrics 1 false]) := by decide

/-- Tick 2 of the hold at tempo 80: one advance due, cancelled. -/
theorem test_tick_hold :
    sees (part 0 { playing 30000 with timeline := { (playing 30000).timeline with
      tempo := 80, accumulator := 80, hold := 3 } }) (.timelineTick 0 false false)
      (fun t => ((t.room 0).timeline.accumulator, (t.room 0).timeline.hold, (t.room 0).timeline.clock, t.handed)) =
      some (60, 2, 30000, []) := by decide

/-- The detent of the turned knob's instant 14, taken at clock 88,514. -/
theorem test_key_detent :
    sees (partWith 2 (playing 88514) (.detent 2 true)) (.keyDetent 2)
      (fun t => (t.handed, (t.room 2).timeline.keyOffset, (t.room 2).timeline.keyStamp, sending t)) =
      some ([], 1, 88514, [11, 2, 0, 0, 2, 8, 1]) := by decide

/-- Instant 14: line B is accepted as 0 after three equal samples, and this fourth step makes a detent. -/
theorem test_knob_fourth_step :
    sees (part 2 { cueing with timeline := { Timeline.start with
      detents := 3, knobA := ⟨[false, false, false], some false⟩, knobB := ⟨[false, false, true], some true⟩ } })
      (.timelineTick 2 false false)
      (fun t => ((t.room 2).timeline.knobB.level, (t.room 2).timeline.detents, t.handed)) =
      some (some false, 0, [.detent 2 true]) := by decide

/-- The mark after tick 10: the credit of 15 that remained is replaced. -/
theorem test_time_mark_catch_up :
    sees (partWith 3 { playing 50020 with timeline := { (playing 50020).timeline with catchUp := 15 } }
      (.mark 3 50040)) (.timeMark 3)
      (fun t => ((t.room 3).timeline.catchUp, (t.room 3).timeline.hold, (t.room 3).markTimer)) =
      some (20, 0, .running 400) := by decide

/-- The last mark: a jump by 335. -/
theorem test_time_mark_jump :
    sees (partWith 3 (playing 50065) (.mark 3 50400)) (.timeMark 3)
      (fun t => ((t.room 3).timeline.clock, (t.room 3).timeline.catchUp, t.handed)) =
      some (50400, 0, [.toGuard 3 50400, .toScore 3 50400, .toLyrics 3 true]) := by decide

theorem test_end_guard_reached :
    sees (partWith 2 (playing 218000) (.toGuard 2 218000)) (.endGuard 2)
      (fun t => ((t.room 2).phase, (t.room 2).result.map (·.outcome))) =
      some (.result, some .complete) := by decide

theorem test_end_guard_short :
    sees (partWith 2 (playing 217999) (.toGuard 2 217999)) (.endGuard 2) (fun t => (t.room 2).phase) =
      some .playing := by decide

/-! ## Lyrics (chapter 3) -/

/-- A line of row 0 with no syllables. -/
def row0 (id start stop : Nat) (st : LineState) : Line := ⟨id, 0, .a, start, stop, [], [], st⟩

/-- Clock 14,500 of the worked sequence: line 10 retires, and line 11 is SHOWN and SINGING at once. -/
theorem test_evaluation_contention :
    sees (partWith 1 { playing 14500 with
      lyrics := ⟨[row0 10 10000 14000 .done, row0 11 14200 15000 .loaded, row0 12 15100 15400 .loaded], none, none⟩ }
      (.toLyrics 1 false)) (.evaluation 1) (fun t => (t.room 1).lyrics.lines.map fun l => (l.id, l.state)) =
      some [(11, .singing), (12, .loaded)] := by decide

/-- The jump to 16,000: lines 11 and 12 are skipped, line 10 retires and line 13 is SINGING. -/
theorem test_evaluation_jump :
    sees (partWith 1 { playing 16000 with
      lyrics := ⟨[row0 10 10000 14000 .singing, row0 11 14200 15000 .loaded, row0 12 15100 15400 .loaded,
        row0 13 15600 19000 .loaded], none, none⟩ } (.toLyrics 1 true)) (.evaluation 1)
      (fun t => ((t.room 1).lyrics.lines.map fun l => (l.id, l.state), (t.room 1).lyrics.lastSkipped, sending t)) =
      some ([(13, .singing)], some 12, [11, 1, 0, 0, 4, 12, 1, 0, 12]) := by decide

/-! ## Compositing (chapter 4) -/

/-- The worked example of dimming one pixel. -/
theorem test_dimmed_pixel : Colour.dimmed 3 ⟨200, 60, 150⟩ = ⟨125, 86, 141⟩ := by decide

/-- The glyphs of the worked example of laying out a line; the code at index 4 is ABSENT. -/
def glyphs205 : GlyphStore :=
  ⟨[(0, ⟨0, 24⟩), (1, ⟨960, 26⟩), (2, ⟨2000, 22⟩), (3, ⟨2880, 30⟩), (5, ⟨4080, 20⟩), (6, ⟨4880, 28⟩),
    (7, ⟨6000, 24⟩), (8, ⟨6960, 26⟩)], [], 8000⟩

/-- Its width, and its first column under RIGHT and under CENTER. -/
theorem test_line_layout :
    rowWidth glyphs205 (line205 .singing).text = 232 ∧ alignedStart .right 40 232 = 1008 ∧
      alignedStart .center 40 232 = 524 := by decide

/-- Its wipes at clock 43,150. -/
theorem test_wipes :
    ((line205 .singing).syllables.map fun y =>
      wipe .singing 43150 ((line205 .singing).spanWidth glyphs205 y) y) = [76, 29, 0] := by decide

/-- The string 81.6 of the worked example of the score band is 86 columns wide. -/
theorem test_score_width :
    rowWidth ⟨(List.range 10).map fun d => (48 + d, ⟨0, 24⟩), [], 0⟩ (scoreText 48 816) = 86 := by decide

/-! ## Timers (R3, R8, R12, R14, R15, R157) -/

/-- Mark timer expiry at 70.350 s in the worked sequence of 1.8. -/
theorem test_mark_timer_expiry :
    sees (part 2 { playing 64350 with markTimer := .running 0 }) (.markTimerExpiry 2)
      (fun t => ((t.room 2).phase, (t.room 2).reasons, sending t)) =
      some (.paused, ⟨true, false⟩, [11, 2, 0, 0, 3, 6, 4, 1]) := by decide

/-- A mark taken first has started the timer again, and it does not expire (R8). -/
theorem test_mark_timer_restarted :
    sees (part 2 (playing 64350)) (.markTimerExpiry 2) (fun t => ((t.room 2).phase, (t.room 2).markTimer)) =
      some (.playing, .running 400) := by decide

theorem test_cue_timer_expiry :
    sees (part 2 { cueing with cueTimer := .running 0 }) (.cueTimerExpiry 2)
      (fun t => ((t.room 2).phase, (t.room 2).queue.entries, (t.room 2).result.map (·.outcome), kinds t)) =
      some (.attract, [], some .aborted, [.cueTimeout]) := by decide

theorem test_result_hold_expiry :
    sees (part 2 { ended with holdTimer := .running 0 }) (.resultHoldExpiry 2) (fun t => ((t.room 2).phase, (t.room 2).staleTimer)) =
      some (.attract, .running 500) := by decide

theorem test_video_stale_expiry :
    sees (part 2 { playing 5 with staleTimer := .running 0 }) (.videoStaleExpiry 2) (fun t => ((t.room 2).staleTimer, sending t)) =
      some (.stopped, [11, 2, 0, 0, 4, 13, 0, 0, 0]) := by decide

/-- The lapsed offer of the worked sequence of chapter 9. -/
theorem test_offer_timer_expiry :
    sees (part 0 { roomIn .attract [] with
      queue := ⟨[entry 20 2 .offered, entry 19 5 .queued], 21, .running 0, false, none⟩ }) (.offerTimerExpiry 0)
      (fun t => ((t.room 0).queue.entries.map (·.state), (t.room 0).queue.suspended, (t.room 0).queue.lapsed,
        sending t)) =
      some ([.queued, .queued], true, some 20, [11, 0, 0, 0, 2, 3, 20]) := by decide

/-! ## Video (chapter 5) -/

/-- A frame buffer manager with its roles and record. -/
def frames (a b c : Role) (record : Option FillRecord) (last : Option Nat) : FrameManager :=
  { FrameManager.start with roles := #v[a, b, c], record := record, lastCompleted := last }

/-- A VIDEO payload of black pairs for segment 0 of line 0. -/
def segment (sequence : Nat) : List Byte :=
  be2 sequence ++ [0, 0, 0] ++ (List.range 160).flatMap fun _ => ([0, 0, 128, 128] : List Byte)

/-- The first cell of frame 100 takes buffer 1, the lower of the two FREE ones. -/
theorem test_video_opens_frame :
    sees (partWith 0 (roomIn .attract []) (.video 0 (segment 100))) (.video 0)
      (fun t => ((t.room 0).video.roles, (t.room 0).video.record.map fun f => (f.sequence, f.count))) =
      some (#v[.front, .filling, .free], some (100, 1)) := by decide +kernel

/-- The first cell of frame 0 abandons frame 65535. -/
theorem test_video_abandons_frame :
    sees (partWith 2 { roomIn .attract [] with
      video := frames .filling .free .front (some ⟨65535, 1, 1900⟩) (some 65534) } (.video 2 (segment 0))) (.video 2)
      (fun t => ((t.room 2).video.abandoned, (t.room 2).video.record.map fun f => (f.sequence, f.count))) =
      some (1, some (0, 1)) := by decide +kernel

/-- The last segment of frame 102 completes it while 101 is READY: buffer 0 becomes FREE and 101 is dropped. -/
theorem test_frame_completion_drops :
    sees (partWith 0 { roomIn .attract [] with
      video := frames .ready .front .filling (some ⟨102, 0, 2879⟩) (some 101), staleTimer := .running 9 }
      (.video 0 (segment 102))) (.frameCompletion 0)
      (fun t => ((t.room 0).video.roles, (t.room 0).video.lastCompleted, (t.room 0).video.dropped,
        (t.room 0).staleTimer)) =
      some (#v[.free, .front, .ready], some 102, 1, .running 2000) := by decide +kernel

/-- The frame start after that shows frame 102. -/
theorem test_frame_start_rotates :
    sees (part 0 { roomIn .attract [] with video := frames .free .front .ready none (some 102) })
      (.outputFrameStart 0) (fun t => (t.room 0).video.roles) = some #v[.free, .free, .front] := by decide

/-- A DARK room's frame is black. -/
theorem test_frame_start_dark : sees up (.outputFrameStart 0) (fun t => (t.room 0).compositor.display) =
    some .black := by decide

/-! ## Microphones and analyses (chapter 6) -/

/-- The part with a LOADED table. -/
def loaded (s : State) : State := { s with engine := { s.engine with table := some cells45 } }

/-- A channel with a hop counter, a request and a staging. -/
def channel (hop : Nat) (q : Option AnalysisRequest) (n : Nat) : MicChannel :=
  { MicChannel.start with hopCount := hop, request := q, staging := List.replicate n 1, sequence := 65535 }

/-- The first sample of a song: staged as received and written divided by 16 toward minus infinity. -/
theorem test_sample_written :
    sees (loaded (part 1 (playing 0))) (.samplePair 1 0xFFFF 0x0020)
      (fun t => ((t.room 1).mics.one.staging, (t.room 1).mics.one.ring.take 1, (t.room 1).mics.one.hopCount,
        (t.room 1).mics.two.ring.take 1)) = some ([0xFFFF], [-1], 1, [2]) := by decide

theorem test_sample_not_written_outside_playing :
    sees (loaded (part 1 (roomIn .attract []))) (.samplePair 1 0xFFFF 0x0020)
      (fun t => ((t.room 1).mics.one.staging, (t.room 1).mics.one.hopCount)) = some ([0xFFFF], 0) := by decide

/-- A completed cell's sequence wraps, and an untaken older cell is lost. -/
theorem test_mic_cell_complete :
    sees { part 1 { roomIn .attract [] with mics := ⟨channel 0 none 63, channel 0 none 0⟩ } with
      link := { up.link with
        up := false, micWaiting := (Vector.replicate 8 none).set 2 (some ⟨65534, []⟩) } }
      (.micCellComplete ⟨2, 0xFFFF, 0⟩)
      (fun t => ((t.link.micWaiting.get 2).map fun x => (x.sequence, x.samples.getLast?),
        (t.room 1).mics.one.sequence, (t.room 1).mics.one.lost)) =
      some (some (65535, some 0xFFFF), 0, 1) := by decide

/-- Arrival 320: hop 1 is stamped with the song clock, 20, and waits while the engine runs. -/
theorem test_hop_complete :
    sees { part 1 { playing 20 with mics := ⟨channel 319 none 0, channel 0 none 0⟩ } with
      engine := ⟨some ⟨7, 0, false, []⟩, 7, some cells45, none⟩ } (.hopComplete ⟨1, 0, 0⟩)
      (fun t => ((t.room 1).mics.one.hopCount, (t.room 1).mics.one.request)) = some (0, some ⟨20, 0⟩) := by decide

/-- Arrival 560: the request of age 240 expires. -/
theorem test_request_expiry :
    sees (loaded (part 1 { playing 35 with mics := ⟨channel 239 (some ⟨20, 239⟩) 0, channel 0 none 0⟩ }))
      (.requestExpiry ⟨2, 0, 0⟩) (fun t => ((t.room 1).mics.one.request, (t.room 1).mics.one.dropped)) = some (none, 1) := by decide

/-- The refinement of the worked analysis: 1,700 and 4,000 give an offset of 2. -/
theorem test_refinement : refineOffset 5200 4100 4700 = 2 := by decide

/-- Channel 0 completes in the engine under full load: channel 1 is started next. -/
theorem test_analysis_complete_starts_next :
    sees { part 0 { playing 9 with mics := ⟨channel 0 none 0, channel 0 (some ⟨3, 40⟩) 0⟩ } with
      engine := ⟨some ⟨0, 3, true, []⟩, 0, none, none⟩ } .analysisComplete
      (fun t => (t.engine.current.map fun a => (a.channel, a.stamp), t.engine.lastServed, t.handed)) =
      some (some (1, 3), 1, []) := by decide +kernel

/-! ## Scoring (chapter 7) -/

/-- Note 57 of the worked sequence of grading one note. -/
def note57 (seen : Bool) (onset : Onset) : Note :=
  ⟨91000, 91600, 57, .a, some 90950, none, ⟨seen, false⟩, ⟨onset, .notApplicable⟩⟩

/-- Room 2 of that sequence, with mic 1's record and the note. -/
def grading (x : Singer) (n : Note) : Room :=
  { playing 91120 with singers := ⟨x, Singer.start⟩, melody := ⟨[n], none, none, none⟩ }

/-- The frame at 91,000: HIT, and GOOD by legato. -/
theorem test_result_legato :
    sees (partWith 2 (grading { Singer.start with runStart := some 90820 } (note57 false .pending))
      (.analysis ⟨4, 91000, some (.note 57)⟩)) .analysisResult
      (fun t => ((t.room 2).singers.one, (t.room 2).melody.notes.map (·.onset.one))) =
      some ({ Singer.start with graded := 1, hit := 1, good := 1, judged := 1, runStart := some 90820 },
        [.good]) := by decide

/-- The frame at 91,040: measured 69, an octave above, is a HIT. -/
theorem test_result_octave :
    sees (partWith 2 (grading { Singer.start with runStart := some 90820 } (note57 true .good))
      (.analysis ⟨4, 91040, some (.note 69)⟩)) .analysisResult
      (fun t => ((t.room 2).singers.one.hit, (t.room 2).singers.one.judged)) = some (1, 0) := by decide

/-- Rows of the table of R121 with tolerance 1. -/
theorem test_grades :
    ([-1, 2, 7, 11, -13, 18, 25].map fun d : Int => gradeOf Settings.default 50 (some (.note (50 + d).toNat))) =
      [.hit, .near, .miss, .hit, .hit, .miss, .hit] := by decide

/-- The pass at 91,600 of a note seen with its onset PENDING counts MISSED. -/
theorem test_pass_missed :
    sees (partWith 2 (grading Singer.start (note57 true .pending)) (.toScore 2 91600)) (.pass 2)
      (fun t => ((t.room 2).melody.notes, (t.room 2).singers.one.missed, (t.room 2).singers.one.judged)) =
      some ([], 1, 1) := by decide

/-- The pass of a paused room closes the note uncounted. -/
theorem test_pass_paused :
    sees (partWith 3 { grading Singer.start (note57 true .pending) with phase := .paused } (.toScore 3 91600)) (.pass 3)
      (fun t => ((t.room 3).melody.notes, (t.room 3).singers.one.missed)) = some ([], 0) := by decide

/-- PASS taken before END_GUARD, behind what room 1 was handed (R28, R117): the note is passed, and the song ends
after. -/
theorem test_pass_before_end_guard :
    sees { part 2 (grading Singer.start (note57 true .pending)) with
        handed := [.toGuard 1 9, .toScore 1 9, .toGuard 2 218000, .toScore 2 218000] } (.pass 2)
      (fun t => ((t.room 2).phase, (t.room 2).melody.notes, (t.room 2).singers.one.missed, t.handed)) =
      some (.playing, [], 1, [.toGuard 1 9, .toScore 1 9, .toGuard 2 218000]) := by decide

/-! ## Handsets (chapters 8 and 11) -/

/-- A handset ONLINE with its last accepted bit. -/
def online (bit : Option Bool) : HandsetRecord := { HandsetRecord.offline with online := true, bit := bit }

/-- A line with one handset's record and an open slot polling it. -/
def lineWith (h : HandsetId) (x : HandsetRecord) (slot : Option Slot) : RequestLine :=
  { RequestLine.start with records := RequestLine.start.records.set h x, slot := slot }

/-- An open room with such a line. -/
def roomWith (ln : RequestLine) : Room := { roomIn .attract [] with line := ln }

/-- A poll slot with a window open: its silence is handset 9's third miss, and handset 1 is then probed (log
entry 20). -/
theorem test_poll_slot_closes_window :
    sees (part 1 (roomWith { lineWith 8 { online none with misses := 2 } (some ⟨8, false, none, false⟩) with
        slotTimer := 0 }))
      (.pollSlot 1) (fun t => ((t.room 1).line.silent, ((t.room 1).line.records.get 8).online,
        (t.room 1).line.slot.map (·.handset))) = some (1, false, some 0) := by decide

/-- Slot 3 of the worked sequence of chapter 8: handset 3 is polled in turn. -/
theorem test_poll_slot_normal :
    sees (part 1 (roomWith { lineWith 2 (online none) none with slotTimer := 0, slotCount := 3, discoveryCursor := 3 }))
      (.pollSlot 1)
      (fun t => ((t.room 1).line.slot.map fun o => (o.handset, o.probe), (t.room 1).line.slotCursor,
        (t.room 1).line.discoveryCursor, (t.room 1).line.sent.map fun x => (x.data, x.parity))) =
      some (some (2, false), 3, 3,
        [(3, false), (8, true), (0, false), (2, true), (0, false), (0, false), (9, false)]) := by decide

/-- Slot 0: the first probe goes to address 1. -/
theorem test_poll_slot_probe :
    sees (part 1 (roomWith { RequestLine.start with slotTimer := 0 })) (.pollSlot 1)
      (fun t => ((t.room 1).line.slot.map fun o => (o.handset, o.probe), (t.room 1).line.discoveryCursor)) =
      some (some (0, true), 1) := by decide

/-- A silent poll of an ONLINE handset. -/
theorem test_reply_window_silent :
    sees (part 2 (roomWith (lineWith 8 (online none) (some ⟨8, false, none, false⟩)))) (.replyWindowClose 2)
      (fun t => ((t.room 2).line.slot, (t.room 2).line.silent, ((t.room 2).line.records.get 8).misses)) =
      some (none, 1, 1) := by decide

/-- The third miss: OFFLINE with its outbox emptied, and HANDSET_CHANGED (9, OFFLINE). -/
theorem test_handset_offline :
    sees (part 2 (roomWith (lineWith 8 { online none with misses := 2, outbox := [⟨.nextUp, 12⟩] }
      (some ⟨8, false, none, false⟩)))) (.handsetOffline 2 8) (fun t => ((t.room 2).line.records.get 8, sending t)) =
      some (HandsetRecord.offline, [11, 2, 0, 0, 3, 11, 9, 0]) := by decide

/-- The message of the worked example of chapter 11. -/
def request9 : List RxChar := ([9, 1, 1, 7, 3, 46, 31, 1, 1, 254, 0, 194] : List Byte).map char

/-- It is a REQUEST of song 208,415 as a duet with preset −2, handed to the queue manager. -/
theorem test_handset_reply_request :
    sees (part 0 (roomWith (lineWith 8 (online (some false)) (some ⟨8, false, none, false⟩)))) (.handsetReply 0 request9)
      (fun t => (t.handed, ((t.room 0).line.records.get 8).bit, (t.room 0).line.slot)) =
      some ([.request ⟨0, 8, true, 208415, true, some (-2), false, true⟩], some true, none) := by decide +kernel

/-- A wrong check byte makes the reply garbled. -/
theorem test_handset_reply_garbled :
    sees (part 0 (roomWith (lineWith 8 (online (some false)) (some ⟨8, false, none, false⟩))))
      (.handsetReply 0 (request9.dropLast ++ [char 195]))
      (fun t => (t.handed, (t.room 0).line.garbled, ((t.room 0).line.records.get 8).misses)) =
      some ([], 1, 1) := by decide +kernel

/-- The queue of the worked sequence of admission checks. -/
def admission : Room :=
  { playing 0 with
    settings := { Settings.default with handsetLimit := 2 }
    queue := ⟨[entry 40 3 .playing, { entry 41 14 .queued with song := 7, priority := true },
      { entry 42 5 .queued with song := 120505 }, { entry 43 3 .queued with song := 8 }], 44, .stopped, false, none⟩
    line := lineWith 14 (online (some true)) none }

/-- The staff request with priority stands third. -/
theorem test_request_priority :
    sees (partWith 3 admission (.request ⟨3, 14, true, 77310, false, none, true, true⟩)) (.request 3)
      (fun t => ((t.room 3).queue.entries.map (·.ticket), ((t.room 3).line.records.get 14).stored)) =
      some ([40, 41, 44, 42, 43], some ⟨.accepted 44 3, true⟩) := by decide +kernel

/-- Handset 6 asks for the song of ticket 42. -/
theorem test_request_duplicate :
    sees (partWith 3 { admission with line := lineWith 5 (online (some true)) none }
      (.request ⟨3, 5, true, 120505, false, none, false, true⟩)) (.request 3)
      (fun t => ((t.room 3).queue.entries.length, ((t.room 3).line.records.get 5).stored)) =
      some (4, some ⟨.refused .duplicate, true⟩) := by decide +kernel

/-- CANCEL 7 of the worked sequence of chapter 9, taken first: ticket 8 is offered. -/
theorem test_cancel_offered :
    sees (partWith 1 { roomIn .attract [entry 7 1 .offered, entry 8 4 .queued] with
      line := lineWith 1 (online (some true)) none } (.cancel ⟨1, 1, true, 7, true⟩)) (.cancel 1)
      (fun t => ((t.room 1).queue.entries.map fun e => (e.ticket, e.state),
        ((t.room 1).line.records.get 1).stored)) =
      some ([(8, .offered)], some ⟨.cancelDone 7, true⟩) := by decide +kernel

/-- Taken after SONG_OPEN it aborts the song. -/
theorem test_cancel_aborts :
    sees (partWith 1 { cueing with queue := queueOf [entry 7 1 .loading, entry 8 4 .queued] }
      (.cancel ⟨1, 1, true, 7, true⟩)) (.cancel 1)
      (fun t => ((t.room 1).phase, (t.room 1).result.map (·.outcome), (t.room 1).queue.entries.map (·.state))) =
      some (.attract, some .aborted, [.offered]) := by decide +kernel

/-! ## Witnesses

For each statement with hypotheses, values that meet those of each of its clauses together, at the ends of the
operands' ranges. A hypothesis that only names a value (`u = …`) is met by that value and is left out. -/

/-- A command's cell is taken, and its room byte names the room. -/
abbrev Meets (s : State) (b : Byte) (r : RoomId) : Prop := s.takesCells = true ∧ b.toNat = r.val

/-- The part with the link DOWN. -/
def down : State := { up with link := { up.link with up := false } }

/-- The part with the result queue full. -/
def full : State := { up with link := { up.link with results := List.replicate 16 ⟨0, 0, .ok, 1, []⟩ } }

/-- READY for the device, and PAUSED for room 0. -/
def readyPair : NoticePair := ⟨none, .ready⟩
def pausedPair : NoticePair := ⟨some 0, .paused⟩

theorem witness_StepTakesFrontCommand : up.pending = [] ∧ held.pending = [] := by decide

theorem witness_DeviceResetsSetTheStartingState :
    held.link.resetLine = true ∧ up.link.resetLine = false ∧ up.takesCells = true ∧
    (∀ l ∈ ([[3], [3, 2, 5, 0], [3, 2, 5, 0, 1]] : List (List Byte)),
      up.link.up = true ∧ up.link.results.length < 16 ∧ (l.length < 5 ∨ l.length < 5 + u16 l 3)) ∧
    (∀ l ∈ ([[3, 2, 5, 0, 0], [3, 2, 5, 0, 1, 16, 7]] : List (List Byte)), ¬(l.length < 5 ∨ l.length < 5 + u16 l 3)) := by
  decide

theorem witness_LinkDownAndUp :
    up.link.up = true ∧
    (∀ l ∈ ([[3], [3, 2, 5, 0], [3, 2, 5, 0, 1], [3, 2, 5, 255, 255, 16]] : List (List Byte)),
      up.link.resetLine = false ∧ up.link.results.length < 16 ∧ l ≠ [] ∧ (l.length < 5 ∨ l.length < 5 + u16 l 3)) ∧
    (∀ l ∈ ([[3, 2, 5, 0, 0], [3, 2, 5, 0, 1, 16, 7]] : List (List Byte)), 5 ≤ l.length ∧ 5 + u16 l 3 ≤ l.length) ∧
    down.link.up = false ∧ held.link.resetLine = true ∧ 16 ≤ full.link.results.length ∧
    ((State.reset.link.up = false ∧ readyPair ∈ State.reset.link.notices) ∧
      (down.link.up = false ∧ down.link.resetLine = false ∧ readyPair ∉ down.link.notices ∧
        readyPair ∉ down.link.pendingPairs ∧ down.link.transmit = none)) := by decide

theorem witness_LinkDownAndUp_other_ready :
    ({ held.link with up := false }).resetLine = true ∧
    readyPair ∈ ({ down.link with pendingPairs := [readyPair] }).pendingPairs ∧
    ∃ p content, ({ down.link with transmit := some (.notice readyPair [1]) }).transmit =
      some (.notice p content) ∧ p.kind = .ready :=
  ⟨by decide, by decide, readyPair, [1], rfl, rfl⟩

/-- MIC cells waiting on channels 0 and 7, with a result and a notice behind them. -/
def sendable : State :=
  { up with link := { up.link with
      micWaiting := ((Vector.replicate 8 none).set 0 (some ⟨1, []⟩)).set 7 (some ⟨2, []⟩)
      results := [⟨0, 0, .ok, 1, []⟩], notices := [pausedPair] } }

theorem witness_UplinkChoosesInOrder :
    (up.link.up = true ∧ up.link.resetLine = false ∧ up.link.transmit = none) ∧ down.link.up = false ∧
    held.link.resetLine = true ∧
    ((sendable.link.micWaiting.get 0).isSome = true ∧ ∀ d : Channel, (sendable.link.micWaiting.get d).isSome = true →
      ((0 : Channel) - sendable.link.lastSent - 1).val ≤ (d - sendable.link.lastSent - 1).val) ∧
    ((∀ c : Channel, full.link.micWaiting.get c = none) ∧ full.link.results ≠ []) ∧
    ((∀ c : Channel, State.reset.link.micWaiting.get c = none) ∧ State.reset.link.results = [] ∧
      State.reset.link.notices = [readyPair]) ∧
    ((∀ c : Channel, up.link.micWaiting.get c = none) ∧ up.link.results = [] ∧ up.link.notices = []) := by decide

/-- A room whose head is OFFERED, and one that plays with a result kept. -/
def offered : Room := roomIn .attract [entry 250 3 .offered]
def withResult : Room :=
  { playing 5 with result := some ⟨1, 999999, .aborted, ⟨offered.singerEntry .mic1, offered.singerEntry .mic2⟩⟩ }

theorem witness_UplinkChoosesInOrder_contents :
    (offered.queue.entries.head? = some (entry 250 3 .offered) ∧ (entry 250 3 .offered).state = .offered) ∧
    (∀ e ∈ (playing 5).queue.entries.head?, e.state ≠ .offered) ∧
    ((playing 5).queue.entries.head? = some (entry 1 3 .playing) ∧ (playing 5).phase = .playing) ∧
    (paused 5 ⟨true, false⟩).phase = .paused ∧ (offered.phase ≠ .playing ∧ offered.phase ≠ .paused) ∧
    withResult.result.isSome = true ∧ offered.result = none ∧ (List.replicate 64 (1 : BitVec 16)).length = 64 := by
  decide

/-- A full notice queue. -/
def fullNotices : Link := { up.link with notices := List.replicate 32 pausedPair, pendingPairs := [⟨some 3, .paused⟩] }

theorem witness_NoticeEventsMergeJoinOrPend :
    readyPair ∈ State.reset.link.notices ∧ (⟨some 3, .paused⟩ : NoticePair) ∈ fullNotices.pendingPairs ∧
    (readyPair ∉ up.link.notices ∧ readyPair ∉ up.link.pendingPairs ∧ up.link.notices.length < 32) ∧
    (readyPair ∉ fullNotices.notices ∧ readyPair ∉ fullNotices.pendingPairs ∧ 32 ≤ fullNotices.notices.length ∧
      fullNotices.pendingPairs.Pairwise (fun x y => x.rank < y.rank)) := by decide

theorem witness_IntakeTakesEachKind :
    controlRowOf (.queueMove 3 5 [1, 2]) = some ⟨82, false, some 3, 3, 5, [1, 2]⟩ ∧ up.takesCells = true ∧
    (([1, 2] : List Byte).length + 1 = 256 * (0 : Byte).toNat + (3 : Byte).toNat ∧
      (List.replicate 255 (0 : Byte)).length + 1 = 256 * (1 : Byte).toNat + (0 : Byte).toNat) ∧
    (∀ code ∈ ([0, 3, 83, 255] : List Byte), code.toNat ∉
      [1, 2, 16, 17, 18, 19, 20, 32, 33, 34, 35, 48, 49, 50, 64, 65, 66, 67, 68, 69, 70, 71, 80, 81, 82]) ∧
    ((3 : Byte).toNat = (3 : RoomId).val ∧ (0 : Byte).toNat = (0 : RoomId).val) ∧
    ((be4 4294967295).length = 4 ∧ (be4 4294967295).length = 256 * (0 : Byte).toNat + (4 : Byte).toNat) ∧
    4 ≤ (4 : Byte).toNat ∧ ([1, 2, 3] : List Byte).length ≠ 4 ∧
    (∀ k ∈ ([0, 4, 255] : List Byte), k ≠ 1 ∧ k ≠ 2 ∧ k ≠ 3) := by decide +kernel

theorem witness_CellsWaitForCredit :
    (up.link.up = true ∧ up.link.resetLine = false ∧ up.link.results.length < 16 ∧ up.onLink = []) ∧
    down.link.up = false ∧ held.link.resetLine = true ∧ 16 ≤ full.link.results.length ∧
    (([3, 2, 5, 0] : List Byte).length < 5 ∧ ([3, 2, 5, 0, 1] : List Byte).length < 5 + u16 [3, 2, 5, 0, 1] 3) ∧
    (([3, 2, 5] ++ [0, 1, 16, 1, 0] : List Byte) = [3, 2, 5, 0, 1] ++ [16] ++ [1, 0] ∧
      ([16] : List Byte).length = 256 * (0 : Byte).toNat + (1 : Byte).toNat) := by decide

theorem witness_IntakeRefusesAndAnswers :
    up.takesCells = true ∧
    (controlRowOf (.glyphClear 14 5 [])).any (fun k => k.device && k.room ≠ 15) ∧
    (controlRowOf (.pause 4 5 [])).any (fun k => !k.device && 4 ≤ k.room.toNat) ∧
    (controlRowOf (.statusQuery 15 5 [0])).any (fun k =>
      k.device && k.room = 15 && k.length = some 1 && k.args.length + 1 ≠ 1) ∧
    (controlRowOf (.songOpen 3 5 [])).any (fun k =>
      !k.device && k.room.toNat < 4 && k.length = some 7 && k.args.length + 1 ≠ 7) := by decide

theorem witness_StatusQueryReportsOneMoment : up.takesCells = true := by decide

theorem witness_RoomOpensAndCloses :
    (Meets up 0 0 ∧ (up.room 0).phase = .dark) ∧ (Meets up 3 3 ∧ (up.room 3).phase = .dark) ∧
    (Meets (part 0 (playing 5)) 0 0 ∧ ((part 0 (playing 5)).room 0).phase ≠ .dark) ∧
    (Meets (part 3 ended) 3 3 ∧ ((part 3 ended).room 3).phase ≠ .dark) := by decide

theorem witness_RoomResetRestoresDefaults : Meets up 0 0 ∧ Meets (part 3 (playing 5)) 3 3 := by decide

/-- The number in one, two or four bytes of a payload. -/
def byteAt (args : List Byte) (i : Nat) : Nat := (args.getD i 0).toNat
def twoAt (args : List Byte) (i : Nat) : Nat := 256 * byteAt args i + byteAt args (i + 1)
def fourAt (args : List Byte) (i : Nat) : Nat := 65536 * twoAt args i + twoAt args (i + 2)

/-- Each enumerated field at its greatest code and at the next. -/
theorem witness_RoomSettingsWriteTheWholeRecord :
    (Meets up 0 0 ∧ Meets (part 3 (playing 5)) 3 3) ∧
    (∀ x ∈ [(0, 1), (11, 1), (20, 2), (21, 2), (22, 1)],
      (∀ args ∈ [settingsArgs.set x.1 (byteOf (x.2 + 1))], args.length = 27 ∧ x.2 < byteAt args x.1) ∧
      ∀ args ∈ [settingsArgs.set x.1 (byteOf x.2)], args.length = 27 ∧ byteAt args 0 ≤ 1 ∧ byteAt args 11 ≤ 1 ∧
        byteAt args 20 ≤ 2 ∧ byteAt args 21 ≤ 2 ∧ byteAt args 22 ≤ 1) := by
  decide

theorem witness_NoticeMaskKeepsOfferEnabled :
    Meets up 0 0 ∧ Meets up 3 3 ∧ (List.replicate 12 (2 : Byte)).length = 12 ∧
    ∃ x ∈ List.replicate 12 (2 : Byte), x ≠ 0 ∧ x ≠ 1 := by decide

theorem witness_BandTableAndPaletteWritten :
    Meets up 0 0 ∧ Meets up 3 3 ∧
    -- no entry, 13 entries, a byte short, a kind of 6, an alignment of 3
    (byteAt [0] 0 = 0 ∧ 12 < byteAt (13 :: List.replicate 104 0) 0 ∧
      ([1, 3, 132, 0, 0, 0, 0, 0] : List Byte).length ≠ 1 + 8 * 1 ∧
      (∃ k < 1, 5 < byteAt [1, 3, 132, 6, 0, 0, 0, 0, 15] (8 * k + 3)) ∧
      ∃ k < 2, 2 < byteAt (2 :: [3, 132, 0, 0, 0, 0, 0, 15] ++ [3, 132, 0, 0, 3, 0, 0, 15]) (8 * k + 5)) ∧
    (∀ args ∈ ([[1, 3, 132, 5, 0, 2, 0, 0, 255], 12 :: List.replicate 96 0] : List (List Byte)),
      args.length = 1 + 8 * byteAt args 0 ∧ 1 ≤ byteAt args 0 ∧ byteAt args 0 ≤ 12 ∧
        ∀ k < byteAt args 0, byteAt args (8 * k + 3) ≤ 5 ∧ byteAt args (8 * k + 5) ≤ 2) ∧
    (List.replicate 29 (9 : Byte)).length ≠ 30 ∧
    List.replicate 30 (9 : Byte) =
      (List.range 10).flatMap (fun _ => [(⟨9, 9, 9⟩ : Colour).y, (⟨9, 9, 9⟩ : Colour).cb, (⟨9, 9, 9⟩ : Colour).cr]) := by
  decide

/-- The store filled but for 160 cells, the room of one glyph of width 4. -/
def nearlyFull : State := { up with glyphs := ⟨[], [], 1310560⟩ }

theorem witness_GlyphStoreFillsAndClears :
    (up.takesCells = true ∧ 1023 < twoAt ([4, 0, 4] ++ List.replicate 40 27) 0 ∧ byteAt [3, 255, 3] 2 < 4 ∧
      48 < byteAt [3, 255, 49] 2 ∧ ([3, 255, 4] ++ List.replicate 39 27 : List Byte).length ≠ 3 + 10 * 4) ∧
    (nearlyFull.takesCells = true ∧
      (∀ args ∈ ([[3, 255, 4] ++ List.replicate 40 27, [0, 0, 48] ++ List.replicate 480 27] : List (List Byte)),
        twoAt args 0 ≤ 1023 ∧ 4 ≤ byteAt args 2 ∧ byteAt args 2 ≤ 48 ∧ args.length = 3 + 10 * byteAt args 2) ∧
      (∀ i < 4, byteAt ([3, 255, 4] ++ List.replicate 40 27) (3 + i / 4) / 4 ^ (3 - i % 4) % 4 = i) ∧
      nearlyFull.glyphs.fill + 40 * 4 ≤ 1310720 ∧ 1310720 < nearlyFull.glyphs.fill + 40 * 5) ∧
    (∃ r : RoomId, ∃ l ∈ ((part 3 { playing 9 with lyrics := ⟨[line205 .done], none, none⟩ }).room r).lyrics.lines,
      l.state ≠ .loaded) ∧
    (∀ r : RoomId, ∀ l ∈ ((part 3 { playing 9 with lyrics := ⟨[line205 .loaded], none, none⟩ }).room r).lyrics.lines,
      l.state = .loaded) := by decide +kernel

theorem witness_PitchCellsLoaded :
    up.takesCells = true ∧ (∃ r : RoomId, ((part 3 (playing 5)).room r).phase.songOpen = true) ∧
    (∀ r : RoomId, ((part 3 ended).room r).phase.songOpen = false) ∧ (List.replicate 179 (1 : Byte)).length ≠ 180 ∧
    (cells45.length = 45 ∧ (∀ c ∈ cells45, 1 ≤ c.low ∧ c.low ≤ c.high ∧ c.high ≤ 4095) ∧
      ∀ i < 44, (cells45.getD (i + 1) ⟨0, 0⟩).high + 1 = (cells45.getD i ⟨0, 0⟩).low) ∧
    (∃ c ∈ cells45.set 44 ⟨0, 4⟩, ¬(1 ≤ c.low ∧ c.low ≤ c.high ∧ c.high ≤ 4095)) ∧
    ∃ i < 44, ((cells45.set 44 ⟨4, 4⟩).getD (i + 1) ⟨0, 0⟩).high + 1 ≠ ((cells45.set 44 ⟨4, 4⟩).getD i ⟨0, 0⟩).low := by
  decide +kernel

theorem witness_LyricLineLoaded :
    (Meets (part 0 ended) 0 0 ∧ ((part 0 ended).room 0).phase.songOpen = false) ∧
    (Meets (part 3 cueing) 3 3 ∧ ((part 3 cueing).room 3).phase.songOpen = true ∧
      ([] : List Byte).length ≠ 14 + 2 * byteAt [] 12 + 8 * byteAt [] 13) ∧
    (twoAt line205Args 0 = 205 ∧ fourAt line205Args 4 = 42000 ∧
      ((part 3 cueing).room 3).lyrics.lines.find? (fun x => x.id = 205) = none) ∧
    (([row0 10 42000 42001 .loaded, line205 .loaded, row0 11 42000 42001 .loaded] : List Line) =
        [row0 10 42000 42001 .loaded] ++ line205 .loaded :: [row0 11 42000 42001 .loaded] ∧
      (∀ x ∈ [row0 10 42000 42001 .loaded], x.id ≠ 205) ∧ (line205 .loaded).id = 205) := by decide +kernel

/-- Line 205 is well formed, its last onset and its greatest glyph code at their bounds or not. -/
theorem witness_LyricLineLoaded_well_formed :
    ∀ args ∈ [line205Args, (line205Args.set 14 3).set 15 255, (line205Args.set 52 178).set 53 31],
    ∀ first ∈ [fun i => byteAt args (32 + 8 * i)], ∀ count ∈ [fun i => byteAt args (33 + 8 * i)],
    ∀ onset ∈ [fun i => fourAt args (34 + 8 * i)],
      (byteAt args 12 = 9 ∧ byteAt args 13 = 3 ∧ args.length = 14 + 2 * 9 + 8 * 3) ∧
      (byteAt args 2 ≤ 1 ∧ 1 ≤ byteAt args 3 ∧ byteAt args 3 ≤ 3) ∧
      (fourAt args 4 < fourAt args 8 ∧ fourAt args 8 ≤ 1803000) ∧
      (∀ i < 9, twoAt args (14 + 2 * i) ≤ 1023) ∧
      (first 0 = 0 ∧ (∀ i < 3, 1 ≤ count i) ∧ (∀ i < 2, first (i + 1) = first i + count i) ∧
        first 2 + count 2 = 9) ∧
      (∀ i < 3, fourAt args 4 ≤ onset i ∧ onset i < fourAt args 8) ∧ ∀ i < 2, onset i ≤ onset (i + 1) := by
  decide +kernel

theorem witness_NoteEventsLoaded :
    (Meets (part 0 ended) 0 0 ∧ ((part 0 ended).room 0).phase.songOpen = false) ∧
    (Meets (part 3 cueing) 3 3 ∧ ((part 3 cueing).room 3).phase.songOpen = true) ∧
    (byteAt [0] 0 < 1 ∧ ([17] ++ List.replicate 170 (0 : Byte)).length = 1 + 10 * 17 ∧ 16 < 17) ∧
    (∀ args ∈ [[1] ++ noteArgs 5000 5600 64 3, [2] ++ noteArgs 0 1 0 1 ++ noteArgs 1802999 1803000 127 3],
      args.length = 1 + 10 * byteAt args 0 ∧ 1 ≤ byteAt args 0 ∧ byteAt args 0 ≤ 16 ∧
        ∀ k < byteAt args 0, fourAt args (10 * k + 1) < fourAt args (10 * k + 5) ∧
          fourAt args (10 * k + 5) ≤ 1803000 ∧ byteAt args (10 * k + 9) ≤ 127 ∧ 1 ≤ byteAt args (10 * k + 10) ∧
          byteAt args (10 * k + 10) ≤ 3) ∧
    (∀ args ∈ [[1] ++ noteArgs 5 5 64 3, [1] ++ noteArgs 5 1803001 64 3, [1] ++ noteArgs 5 6 128 3,
        [1] ++ noteArgs 5 6 64 0, [1] ++ noteArgs 5 6 64 4],
      ¬(fourAt args 1 < fourAt args 5 ∧ fourAt args 5 ≤ 1803000 ∧ byteAt args 9 ≤ 127 ∧ 1 ≤ byteAt args 10 ∧
        byteAt args 10 ≤ 3)) ∧
    ([⟨5000, 5600, 64, .both⟩] : List NoteEvent) = [] ++ ⟨5000, 5600, 64, .both⟩ :: [] ∧
    -- late behind an end of 5,001 of singer B, and in time behind ends of 5,000
    ((some 5001 : Option Nat).any (5000 < ·) = true ∧ (some 5000 : Option Nat).any (5000 < ·) = false) := by
  decide +kernel

/-- SONG_OPEN arguments for a ticket and a length. -/
def openArgs (ticket : Byte) (len : Nat) : List Byte := [ticket] ++ be4 len ++ [0]

theorem witness_SongOpenCues :
    (Meets up 0 0 ∧ (openArgs 1 5).length = 6 ∧ (up.room 0).phase = .dark) ∧
    (Meets (part 3 ended) 3 3 ∧ ((part 3 ended).room 3).phase ≠ .dark ∧ u32 (openArgs 1 0) 1 = 0) ∧
    (u32 (openArgs 1 5) 1 ≠ 0 ∧ ((part 3 ended).room 3).phase ≠ .attract) ∧
    (∀ e ∈ (roomIn .attract [entry 2 3 .offered]).queue.entries.head?, e.ticket ≠ u8 (openArgs 1 5) 0) ∧
    ((entry 1 3 .queued).ticket = 1 ∧ (entry 1 3 .queued).state ≠ .offered ∧
      (roomIn .attract [entry 1 3 .queued]).queue.lapsed ≠ some 1) ∧
    (∀ e ∈ [entry 250 3 .offered], e.ticket = u8 (openArgs 250 1800000) 0 ∧ u32 (openArgs 250 1800000) 1 ≠ 0 ∧
      (roomIn .attract [e]).phase = .attract ∧ (roomIn .attract [e]).queue.entries = [e] ∧ e.state = .offered) ∧
    ((entry 1 3 .queued).state = .queued ∧
      (⟨[entry 1 3 .queued], 2, .stopped, true, some 1⟩ : RequestQueue).lapsed = some 1) := by decide

theorem witness_SongRefuseRemovesTheHead :
    (∀ s ∈ [part 0 (roomIn .attract [entry 250 3 .offered, entry 1 4 .queued])],
      Meets s 0 0 ∧ (s.room 0).queue.entries = [entry 250 3 .offered, entry 1 4 .queued] ∧
      (250 : Byte).toNat = 250 ∧ ∀ x ∈ [entry 1 4 .queued], x.ticket ≠ 250) ∧
    (∀ s ∈ [part 3 (playing 5)], Meets s 3 3 ∧ ∀ e, (s.room 3).queue.entries.head? = some e →
      e.ticket = (1 : Byte).toNat → e.state = .loading ∨ e.state = .playing) ∧
    (up.room 0).queue.entries.head? = none := by
  refine ⟨by decide, ?_, by decide⟩
  intro s hs
  obtain rfl := List.mem_singleton.1 hs
  refine ⟨by decide, ?_⟩
  rintro e h -
  obtain rfl : entry 1 3 .playing = e := Option.some.inj h
  exact .inr rfl

theorem witness_SongStartPlays :
    (Meets (part 3 (playing 5)) 3 3 ∧ (be4 0).length = 4 ∧ ((part 3 (playing 5)).room 3).phase ≠ .cueing) ∧
    (Meets (part 0 cueing) 0 0 ∧ ((part 0 cueing).room 0).phase = .cueing ∧
      ((part 0 cueing).room 0).queue.entries = [entry 1 3 .loading] ∧
      ((part 0 cueing).room 0).timeline.songLength = some 215000) := by decide

theorem witness_SongEndMakesTheResult :
    (Meets (part 0 (playing 5)) 0 0 ∧ ((part 0 (playing 5)).room 0).phase = .playing ∧
      ((part 0 (playing 5)).room 0).queue.entries = [entry 1 3 .playing]) ∧
    ((part 3 (paused 5 ⟨true, true⟩)).room 3).phase = .paused ∧
    (((part 0 (playing 5)).room 0).timeline.songLength = some 215000 ∧ 215000 + 3000 ≤ 218000) ∧
    (Meets (part 3 ended) 3 3 ∧ ((part 3 ended).room 3).phase = .result) ∧
    ((part 3 ended).room 3).phase ≠ .playing ∧ ((part 3 ended).room 3).phase ≠ .paused ∧
    ((part 0 (playing 5)).room 0).timeline.songLength.all (fun len => 217999 < len + 3000) = true := by decide

/-- The hand-overs of ticks of rooms 1 and 2, which stand one behind another (R28). -/
def twoTicks : List HandOver :=
  [.toGuard 1 9, .toScore 1 9, .toLyrics 1 false, .toGuard 2 218000, .toScore 2 218000, .toLyrics 2 false]

/-- In them each reader of room 2 finds its own change behind others. -/
theorem witness_readers_of_two_rooms :
    (twoTicks = twoTicks.take 3 ++ .toGuard 2 218000 :: twoTicks.drop 4 ∧ ∀ h ∈ twoTicks.take 3, h.guardOf 2 = none) ∧
    (twoTicks = twoTicks.take 4 ++ .toScore 2 218000 :: twoTicks.drop 5 ∧ ∀ h ∈ twoTicks.take 4, h.scoreOf 2 = none) ∧
    (twoTicks = twoTicks.take 5 ++ .toLyrics 2 false :: [] ∧ ∀ h ∈ twoTicks.take 5, h.lyricsOf 2 = none) := by
  decide

/-- The other items of the statements, each behind one of room 1. -/
theorem witness_items_of_two_rooms :
    (HandOver.mark 1 5).markOf 2 = none ∧ (HandOver.video 1 []).videoOf 2 = none ∧
    (HandOver.toLyrics 2 true).analysisOf = none ∧
    (∀ y ∈ [(⟨1, 3, true, 9, false, none, false, true⟩ : HandedRequest)], y.room ≠ 2) ∧
    (∀ y ∈ [(⟨1, 3, true, 9, true⟩ : HandedCancel)], y.room ≠ 2) := by decide

/-- The counters of 7.8, and ones that stand at their greatest. -/
theorem witness_SongEndMakesTheResult_scores :
    channel4.CountsAgree ∧ ({ Singer.start with graded := 65535, hit := 65535, judged := 65535, good := 65535 }).CountsAgree := by
  decide

theorem witness_PauseHoldsTheRoom :
    (Meets (part 0 (playing 5)) 0 0 ∧ ((part 0 (playing 5)).room 0).phase = .playing) ∧
    (Meets (part 3 (paused 5 ⟨true, false⟩)) 3 3 ∧ ((part 3 (paused 5 ⟨true, false⟩)).room 3).phase = .paused) ∧
    (Meets up 3 3 ∧ (up.room 3).phase = .dark) ∧ (Meets (part 3 ended) 3 3 ∧ ((part 3 ended).room 3).phase = .result) := by
  decide

theorem witness_ResumeReleasesStaff :
    (∀ why ∈ ([⟨false, true⟩, ⟨true, true⟩, ⟨true, false⟩] : List PauseReasons),
      Meets (part 3 (paused 5 why)) 3 3 ∧ ((part 3 (paused 5 why)).room 3).phase = .paused ∧
        ((part 3 (paused 5 why)).room 3).reasons = why) ∧
    (Meets (part 0 (playing 5)) 0 0 ∧ ((part 0 (playing 5)).room 0).phase = .playing) ∧
    (Meets up 0 0 ∧ (up.room 0).phase = .dark) ∧ (Meets (part 3 cueing) 3 3 ∧ ((part 3 cueing).room 3).phase = .cueing) := by
  decide

theorem witness_SkipAbortsTheSong :
    (Meets (part 3 ended) 3 3 ∧ ((part 3 ended).room 3).phase = .result) ∧
    (Meets (part 0 cueing) 0 0 ∧ ((part 0 cueing).room 0).phase.songOpen = true ∧
      ((part 0 cueing).room 0).queue.entries = [entry 1 3 .loading]) := by decide

theorem witness_SetTempoWithASongOpen :
    (Meets (part 0 cueing) 0 0 ∧ ((part 0 cueing).room 0).phase = .cueing) ∧
    (Meets (part 3 (paused 5 ⟨false, true⟩)) 3 3 ∧ ((part 3 (paused 5 ⟨false, true⟩)).room 3).phase = .paused) ∧
    (Meets up 0 0 ∧ (up.room 0).phase = .dark) ∧ (Meets (part 3 ended) 3 3 ∧ ((part 3 ended).room 3).phase = .result) := by
  decide

theorem witness_OfferPollOffersTheHead :
    ((roomIn .attract [entry 1 3 .queued]).phase = .attract ∧ (roomIn .attract [entry 1 3 .queued]).queue.suspended = false ∧
      (roomIn .attract [entry 1 3 .queued]).queue.entries = [entry 1 3 .queued] ∧ (entry 1 3 .queued).state = .queued) ∧
    (cueing.phase ≠ .attract ∧ (⟨[], 1, .stopped, true, none⟩ : RequestQueue).suspended = true ∧
      ∀ e ∈ (roomIn .attract []).queue.entries.head?, e.state ≠ .queued) ∧
    (Meets (part 0 (roomIn .attract [entry 1 3 .offered])) 0 0 ∧
      ((part 0 (roomIn .attract [entry 1 3 .offered])).room 0).queue.headIs .offered = true) ∧
    (Meets up 3 3 ∧ (up.room 3).phase ≠ .attract ∧ (up.room 3).queue.headIs .offered = false) := by decide

/-- A room whose PLAYING head has two entries behind it. -/
def three : Room := { playing 5 with queue := queueOf [entry 1 3 .playing, entry 2 4 .queued, entry 3 5 .queued] }

theorem witness_QueueRemoveCancelsAnEntry :
    (Meets up 0 0 ∧ ∀ x ∈ (up.room 0).queue.entries, x.ticket ≠ (7 : Byte).toNat) ∧
    (Meets (part 3 three) 3 3 ∧
      ((part 3 three).room 3).queue.entries = [entry 1 3 .playing, entry 2 4 .queued] ++ entry 3 5 .queued :: [] ∧
      (3 : Byte).toNat = 3 ∧ ∀ x ∈ [entry 1 3 .playing, entry 2 4 .queued] ++ [], x.ticket ≠ 3) ∧
    (((part 3 three).room 3).queue.entries = [] ++ entry 1 3 .playing :: [entry 2 4 .queued, entry 3 5 .queued] ∧
      ∀ x ∈ [] ++ [entry 2 4 .queued, entry 3 5 .queued], x.ticket ≠ 1) := by decide

theorem witness_QueueMovePlacesAnEntry :
    (Meets up 0 0 ∧ ∀ x ∈ (up.room 0).queue.entries, x.ticket ≠ (7 : Byte).toNat) ∧
    (Meets (part 3 three) 3 3 ∧
      ((part 3 three).room 3).queue.entries = [entry 1 3 .playing, entry 2 4 .queued] ++ entry 3 5 .queued :: [] ∧
      (∀ x ∈ [entry 1 3 .playing, entry 2 4 .queued] ++ [], x.ticket ≠ 3) ∧ (entry 1 3 .playing).state ≠ .queued) ∧
    (max 2 (min three.queue.entries.length 255) = [entry 1 3 .playing, entry 2 4 .queued].length + 1 ∧
      max 2 (min three.queue.entries.length 0) ≠ [entry 1 3 .playing, entry 2 4 .queued].length + 1) := by decide

theorem witness_TimelineTickAdvancesTheClock :
    held.link.resetLine = true ∧ (part 3 (playing 5)).link.resetLine = false ∧
    ((part 3 (playing 5)).room 3).phase = .playing ∧ ((part 3 cueing).room 3).phase ≠ .playing := by decide

theorem witness_TempoOverManyTicks :
    (playing 5).timeline.accumulator ≤ 99 ∧ (playing 5).timeline.catchUp = 0 ∧ (playing 5).timeline.hold = 0 ∧
    (playing 5).timeline.songLength = some 215000 ∧
    (playing 5).timeline.clock + ((playing 5).timeline.accumulator + 217995 * (playing 5).timeline.tempo) / 100 ≤ 215000 + 3000 := by
  decide

/-- A room with a key offset. -/
def keyed (x : Room) (k : Int) : Room := { x with timeline := { x.timeline with keyOffset := k } }

/-- Two detents of room 3 behind one of room 2. -/
def detents : List HandOver := [.detent 2 true, .detent 3 false, .detent 3 true]

theorem witness_KeyDetentMovesTheKey :
    (∀ c : Bool, HandOver.detent 3 c ∉ (part 3 cueing).handed) ∧
    (detents = [.detent 2 true] ++ .detent 3 false :: [.detent 3 true] ∧
      ∀ c : Bool, HandOver.detent 3 c ∉ [HandOver.detent 2 true]) ∧
    ((keyed cueing 5).phase.songOpen = true ∧ -6 ≤ (keyed cueing 5).timeline.keyOffset + 1 ∧
      (keyed cueing 5).timeline.keyOffset + 1 ≤ 6) ∧
    (-6 ≤ (keyed cueing (-5)).timeline.keyOffset + -1 ∧ (keyed cueing (-5)).timeline.keyOffset + -1 ≤ 6) ∧
    ended.phase.songOpen = false ∧ 6 < (keyed cueing 6).timeline.keyOffset + 1 ∧
    (keyed cueing (-6)).timeline.keyOffset + -1 < -6 := by decide

theorem witness_TimeMarkCorrectsThePlayingClock :
    (cueing.phase ≠ .playing ∧ cueing.phase ≠ .paused) ∧ (playing 500).phase = .playing ∧
    (playing 500).timeline.songLength = some 215000 ∧
    ∀ len ∈ [215000], 500 + 40 < min 541 (len + 3000) ∧ ¬500 + 40 < min 540 (len + 3000) ∧
      500 + 3 ≤ min 503 (len + 3000) ∧ ¬500 + 3 ≤ min 502 (len + 3000) ∧ 500 ≤ min 498 (len + 3000) + 2 ∧
      ¬500 ≤ min 497 (len + 3000) + 2 := by decide

theorem witness_TimeMarkInAPause :
    (∀ why ∈ ([⟨true, false⟩, ⟨false, true⟩, ⟨true, true⟩] : List PauseReasons),
      (paused 500 why).phase = .paused ∧ (paused 500 why).reasons = why) ∧
    (paused 500 ⟨true, false⟩).timeline.songLength = some 215000 ∧
    ∀ len ∈ [215000], min 540 (len + 3000) ≤ 500 + 40 ∧ 500 + 40 < min 541 (len + 3000) ∧
      min 4294967295 (len + 3000) = len + 3000 ∧ min 217999 (len + 3000) < len + 3000 := by decide

theorem witness_EvaluationBringsLinesUpToDate :
    (playing 5).phase = .playing ∧ (paused 5 ⟨true, false⟩).phase = .paused ∧ ended.phase ≠ .playing ∧
    (∀ y ∈ [(⟨[row0 10 10000 14000 .singing, row0 11 14200 15000 .loaded, line205 .loaded], none, none⟩ : Lyrics)],
      y.RowsAgree ∧ (y.lines.map (·.id)).Nodup) := by decide

/-- An instance of the last clause at 14,500 with no linger: line 10 retires, line 11 is SINGING, 205 stays. -/
theorem witness_EvaluationBringsLinesUpToDate_lines :
    ((⟨[row0 10 10000 14000 .singing, row0 11 14200 15000 .loaded, line205 .loaded], none, none⟩ : Lyrics).evaluate
      14500 2000 0).lines = [row0 11 14200 15000 .singing, line205 .loaded] := by decide

theorem witness_PassClosesNotes :
    (∀ k ∈ [65534, 65535], (grading { channel4 with judged := k } (note57 true .pending)).phase = .playing) ∧
    ((note57 true .pending).stop ≤ 91600 ∧ min (65535 - 65534) 1 = 1 ∧ min (65535 - 65535) 1 = 0) ∧
    (paused 5 ⟨true, false⟩).phase = .paused ∧ (ended.phase ≠ .playing ∧ ended.phase ≠ .paused) := by decide

theorem witness_MarkAndCueTimersExpire :
    (∀ rm ∈ [{ playing 5 with markTimer := .running 0 }], rm.markTimer = .running 0 ∧ rm.phase = .playing) ∧
    (playing 5).markTimer ≠ .running 0 ∧ ended.markTimer ≠ .running 0 ∧
    (∀ rm ∈ [{ cueing with cueTimer := .running 0 }],
      rm.cueTimer = .running 0 ∧ rm.phase = .cueing ∧ rm.queue.entries = [entry 1 3 .loading]) ∧
    ((cueing.singers.get .mic1).graded = 0 ∧ (cueing.singers.get .mic2).graded = 0) ∧
    cueing.cueTimer ≠ .running 0 ∧ ended.cueTimer ≠ .running 0 := by decide

theorem witness_RoomTimersExpire :
    (∀ rm ∈ [{ ended with holdTimer := .running 0 }], rm.holdTimer = .running 0 ∧ rm.phase = .result) ∧
    ended.holdTimer ≠ .running 0 ∧ (playing 5).holdTimer ≠ .running 0 ∧
    (∀ rm ∈ [{ playing 5 with staleTimer := .running 0 }], rm.staleTimer = .running 0) ∧
    (playing 5).staleTimer ≠ .running 0 ∧ ended.staleTimer ≠ .running 0 ∧
    (∀ q ∈ [(⟨[entry 1 3 .offered], 2, .running 0, false, none⟩ : RequestQueue)],
      q.offerTimer = .running 0 ∧ q.entries = [entry 1 3 .offered]) ∧
    (playing 5).queue.offerTimer ≠ .running 0 := by decide

theorem witness_VideoCellsAreGathered :
    (∀ v ∈ [FrameManager.start, frames .filling .free .front (some ⟨65535, 1, 2879⟩) (some 65534)],
      v.RolesAgree ∧ ∀ f ∈ v.record, f.count < 2880) ∧
    Room.start.phase = .dark ∧ (roomIn .attract []).phase ≠ .dark ∧
    -- malformed by its length, its line, its segment
    ((segment 7).dropLast.length ≠ 645 ∧ 719 < twoAt (((segment 7).set 2 2).set 3 208) 2 ∧
      3 < byteAt ((segment 7).set 4 4) 4) ∧
    (∀ p ∈ [segment 65535, (((segment 0).set 2 2).set 3 207).set 4 3],
      p.length = 645 ∧ twoAt p 2 ≤ 719 ∧ byteAt p 4 ≤ 3 ∧ 4 * twoAt p 2 + byteAt p 4 < 2880) ∧
    (∀ ahead ∈ [fun (sequence k : Nat) => (((sequence : Int) - (k : Int)) % 65536).toNat],
      ahead 0 65535 = 1 ∧ ahead 32767 0 = 32767 ∧ ahead 32768 0 = 32768 ∧ ahead 7 7 = 0) ∧
    ((frames .filling .free .front (some ⟨65535, 1, 2879⟩) (some 65534)).roles.get 0 = .filling) ∧
    (FrameManager.start.roles.get 1 = .free ∧ ∀ c : Fin 3, c < 1 → FrameManager.start.roles.get c ≠ .free) := by
  decide +kernel

theorem witness_FrameCompletionMakesReady :
    (∀ p, HandOver.video 0 p ∉ up.handed) ∧ Room.start.phase = .dark ∧
    (∀ f ∈ (frames .filling .free .front (some ⟨7, 0, 2878⟩) none).record, f.count < 2879) ∧
    (∀ v ∈ [frames .filling .free .front (some ⟨7, 0, 2879⟩) none,
        frames .filling .ready .front (some ⟨7, 0, 2879⟩) none],
      v.RolesAgree ∧ v.record = some ⟨7, 0, 2879⟩ ∧ v.roles.get 0 = .filling) ∧
    ((∀ c : Fin 3, (frames .filling .free .front (some ⟨7, 0, 2879⟩) none).roles.get c ≠ .ready) ∧
      (frames .filling .ready .front (some ⟨7, 0, 2879⟩) none).roles.get 1 = .ready) ∧
    (([HandOver.video 1 [], .video 0 (segment 7)] = [HandOver.video 1 []] ++ .video 0 (segment 7) :: []) ∧
      ∀ h ∈ [HandOver.video 1 []], h.isVideoOf 0 = false) ∧
    (roomIn .attract []).phase ≠ .dark ∧
    ((segment 7).length = 645 ∧ twoAt (segment 7) 0 = 7 ∧ twoAt (segment 7) 2 ≤ 719 ∧ byteAt (segment 7) 4 ≤ 3 ∧
      (0 : BitVec 2880).getLsbD (4 * twoAt (segment 7) 2 + byteAt (segment 7) 4) = false) ∧
    (((twoAt (segment 8) 0 : Int) - 7) % 65536 ≠ 0 ∧ (segment 7).dropLast.length ≠ 645) ∧
    (BitVec.twoPow 2880 0).getLsbD 0 = true := by
  refine ⟨fun p => ?_, by decide, by decide, by decide +kernel, by decide, ⟨rfl, by decide⟩, by decide, by decide +kernel,
    by decide +kernel, by decide +kernel⟩
  simp [up, State.reset]

theorem witness_OutputFrameStartTakesTheSnapshot :
    held.link.resetLine = true ∧ up.link.resetLine = false ∧
    (FrameManager.start.RolesAgree ∧ FrameManager.start.roles.get 0 = .front ∧
      ∀ c : Fin 3, FrameManager.start.roles.get c ≠ .ready) ∧
    ((((#v[.free, .front, .ready] : Vector Role 3).set 1 .free).set 2 .front).get 2 = .front) ∧
    ((frames .free .front .ready none none).RolesAgree ∧ (frames .free .front .ready none none).roles.get 1 = .front ∧
      (frames .free .front .ready none none).roles.get 2 = .ready) := by decide

/-- A snapshot of a room that sings line 205 on row 1. -/
def shot : Snapshot :=
  { phase := .playing, clock := 43150, upper := none, lower := some (line205 .singing), glyphs := glyphs205
    palette := Palette.black, live := ⟨⟨.a, none⟩, ⟨.b, none⟩⟩, final := ⟨⟨.a, none⟩, ⟨.b, none⟩⟩, songs := []
    bands := Band.defaultTable, digitBase := 48, picture := [] }

theorem witness_FramePixelsFollowTheBands :
    (shot.bands = Band.defaultTable.take 2 ++ Band.defaultTable.getD 2 ⟨0, .blank, 0, .left, 0, ⟨false, false, false, false⟩⟩ ::
        Band.defaultTable.drop 3 ∧ ((Band.defaultTable.take 2).map (·.height)).sum = 580 ∧ 580 ≤ 639 ∧ 639 < 580 + 60) ∧
    ((Band.defaultTable.getD 2 ⟨0, .blank, 0, .left, 0, ⟨false, false, false, false⟩⟩).mask.playing = true ∧
      shot.phase = .playing ∧ (line205 .singing).part = .a) ∧
    ((StateMask.mk false true true false).attract = false ∧ (StateMask.mk false true true false).playing = true ∧
      ({ shot with phase := .paused }).phase = .paused) ∧
    ((([⟨700, .blank, 0, .left, 0, ⟨true, true, true, true⟩⟩] : List Band).map (·.height)).sum ≤ 719) ∧
    (629 = 590 + 39 ∧ 629 < 580 + 60 ∧ 1239 < 1280 - 40) ∧ 1280 - 40 ≤ 1240 ∧
    ((line205 .singing).glyphs = [0, 1, 2, 3] ++ 4 :: [5, 6, 7, 8] ∧ glyphs205.entry 4 = none) ∧
    ((line205 .singing).glyphs = [] ++ 0 :: [1, 2, 3, 4, 5, 6, 7, 8] ∧ glyphs205.entry 0 = some ⟨0, 24⟩) := by decide

/-- The text of 81.6 with its point in the middle, and room states that show live scores, final ones and none. -/
theorem witness_FramePixelsFollowTheBands_text :
    (∃ before after, scoreText 48 816 = before ++ (.point, 2) :: after ∧
      ∃ before e, scoreText 48 816 = before ++ [(e, 2)]) ∧
    (32 ≤ 37 ∧ 37 < 40 ∧ shot.phase = .playing) ∧ ({ shot with phase := .result }).phase = .result ∧
    ({ shot with phase := .cueing }).phase = .cueing ∧
    (glyphs205.entry 0 = some ⟨0, 24⟩ ∧ memRead clearCell [(24, 2)] (0 + 1 * 24 + 0) ≠ 0) :=
  ⟨⟨[(.glyph 56, 2), (.glyph 49, 2)], [(.glyph 54, 2)], rfl, [(.glyph 56, 2), (.glyph 49, 2), (.point, 2)], .glyph 54, rfl⟩,
    by decide⟩

theorem witness_SamplePairStagedAndWritten :
    held.link.resetLine = true ∧ (up.room 3).phase = .dark ∧
    (∀ s ∈ [loaded (part 3 { playing 5 with mics := ⟨channel 318 (some ⟨0, 238⟩) 62, channel 319 (some ⟨0, 239⟩) 63⟩ })],
      s.link.resetLine = false ∧ (s.room 3).phase ≠ .dark ∧
        (s.room 3).phase = .playing ∧ s.engine.table.isSome = true ∧
        (∀ m ∈ [Mic.mic1, Mic.mic2], (s.room 3).settings.micParts.get m ≠ .none) ∧
        ((s.room 3).mics.one.staging.length < 63 ∧ 63 ≤ (s.room 3).mics.two.staging.length) ∧
        ((s.room 3).mics.one.request = some ⟨0, 238⟩ ∧ (s.room 3).mics.two.request = some ⟨0, 239⟩) ∧
        ((s.room 3).mics.one.hopCount < 319 ∧ 319 ≤ (s.room 3).mics.two.hopCount)) ∧
    (channel 318 none 0).request = none := by decide +kernel

theorem witness_MicCellsCompleteAndRequestsExpire :
    held.link.resetLine = true ∧ (up.room 3).phase = .dark ∧
    ((channel 0 none 62).staging.length < 63 ∧ 63 ≤ (channel 0 none 63).staging.length) ∧
    (roomIn .attract []).phase ≠ .dark ∧ ended.phase ≠ .playing ∧ up.engine.table = none ∧
    (∀ q ∈ (channel 0 (some ⟨0, 238⟩) 0).request, q.age < 239) ∧
    ((playing 5).phase = .playing ∧ (playing 5).settings.micParts.get .mic2 ≠ .none ∧
      (loaded up).engine.table.isSome = true ∧ (channel 318 (some ⟨0, 239⟩) 0).request = some ⟨0, 239⟩ ∧
      (channel 318 (some ⟨0, 239⟩) 0).hopCount < 319) := by decide

theorem witness_HopsRaiseRequests :
    held.link.resetLine = true ∧
    (∀ s ∈ [loaded (part 3 { playing 5 with mics := ⟨channel 318 none 0, channel 319 none 0⟩ })],
      s.link.resetLine = false ∧ (s.room 3).phase = .playing ∧ s.engine.table.isSome = true ∧
        (s.room 3).settings.micParts.get .mic2 ≠ .none ∧ (s.room 3).mics.one.hopCount < 319 ∧
        319 ≤ (s.room 3).mics.two.hopCount) ∧
    (∀ s ∈ [part 3 { playing 5 with mics := ⟨channel 0 none 0, channel 0 (some ⟨4, 239⟩) 0⟩ }],
      s.engine.current = none ∧ (s.room 3).mics.two.request = some ⟨4, 239⟩ ∧
      (s.room 3).mics.two.ring.length = 640 ∧ (s.room 3).mics.two.writePos < 640 ∧
      ∀ d : Channel, (s.channel d).request.isSome = true →
        (channelOf 3 .mic2 - s.engine.lastServed - 1).val ≤ (d - s.engine.lastServed - 1).val) ∧
    (∀ c : Channel, (up.channel c).request = none) ∧ (⟨some ⟨0, 0, false, []⟩, 0, none, none⟩ : Engine).current.isSome := by
  decide +kernel

/-- A window of a loud period of 20 samples, 20 times. -/
def window20 : List Int := (List.range 400).map fun i => (((i % 20 : Nat) : Int) - 10) * 20

/-- Its analysis for channel 4. -/
def analysis4 : State := { up with engine := ⟨some ⟨4, 7, false, window20⟩, 4, some cells45, none⟩ }

theorem witness_AnalysisCompletes :
    up.engine.current = none ∧ (⟨4, 7, true, []⟩ : Analysis).void = true ∧
    (analysis4.engine.current = some ⟨4, 7, false, window20⟩ ∧ window20.length = 400) ∧
    (cells45.length = 45 ∧ cellsInRange cells45 = true ∧ cellsContiguous cells45 = true) ∧
    ((cells45.getD 0 ⟨0, 0⟩).high < 4001 ∧ 400 < (cells45.getD 44 ⟨0, 0⟩).low) ∧
    ((cells45.getD 44 ⟨0, 0⟩).low ≤ 401 ∧ 401 ≤ (cells45.getD 44 ⟨0, 0⟩).high) := by decide +kernel

/-- The difference of a window at a lag, written out. -/
def differenceOf (w : List Int) (l : Nat) : Nat :=
  ((List.range 200).map fun i => (w.getD i 0 - w.getD (i + l) 0).natAbs).sum

/-- Lag 20 attains the least difference first, loudly enough to be voiced. -/
theorem witness_AnalysisCompletes_voiced :
    differenceOf window20 20 = 0 ∧ (∀ l < 5, 0 < differenceOf window20 (15 + l)) ∧
    4000 ≤ ((List.range 200).map fun i => (window20.getD i 0).natAbs).sum := by decide +kernel

theorem witness_AnalysisResultIsGraded :
    (channelOf 2 .mic1 = 4 ∧ channelOf 3 .mic2 = 7) ∧ ended.phase ≠ .playing ∧
    (grading Singer.start (note57 false .pending)).phase = .playing ∧
    (∀ n ∈ [note57 false .pending], n.part = .a ∧ ¬n.start ≤ 90999 ∧ ¬91600 < n.stop ∧
      (n.start ≤ 91000 ∧ 91000 < n.stop) ∧ (n.start ≤ 91599 ∧ 91599 < n.stop)) := by decide

theorem witness_GradesFollowTheDeviation :
    ((56 : Nat) : Int) - 50 = 12 * 0 + 6 ∧ ((44 : Nat) : Int) - 50 = 12 * 0 + -6 ∧ ((57 : Nat) : Int) - 50 = 12 * 1 + -5 ∧
    65535 ≤ ({ Singer.start with graded := 65535 }).graded ∧ ({ Singer.start with graded := 65534 }).graded < 65535 := by
  decide

theorem witness_PollSlotPollsOneHandset :
    held.link.resetLine = true ∧ RequestLine.start.slotTimer ≠ 0 ∧
    (∀ ln ∈ [{ lineWith 8 (online none) (some ⟨8, false, none, false⟩) with slotTimer := 0 }],
      ln.slotTimer = 0 ∧ ln.slot.isSome = true) ∧
    (∀ ln ∈ [{ RequestLine.start with slotTimer := 0 }], ln.slotTimer = 0 ∧ ln.slot = none ∧
      (ln.records.get 0).online = !true ∧ ln.slotCount = 0 ∧
      ∀ k : HandsetId, (ln.records.get k).online = false →
        ((0 : HandsetId).val + 15 - ln.discoveryCursor % 15) % 15 ≤ (k.val + 15 - ln.discoveryCursor % 15) % 15) ∧
    (∀ ln ∈ [{ lineWith 14 (online none) none with slotTimer := 0, slotCount := 15, slotCursor := 15 }],
      ln.slotTimer = 0 ∧ ln.slot = none ∧ (ln.records.get 14).online = !false ∧ ln.slotCount ≠ 0 ∧
      ∀ k : HandsetId, (ln.records.get k).online = true →
        ((14 : HandsetId).val + 15 - ln.slotCursor % 15) % 15 ≤ (k.val + 15 - ln.slotCursor % 15) % 15) := by decide

theorem witness_MissesTakeAHandsetOffline :
    held.link.resetLine = true ∧ RequestLine.start.slot = none ∧
    (∀ ln ∈ [lineWith 8 { online none with misses := 1 } (some ⟨8, false, none, false⟩)],
      (∀ o ∈ ln.slot, o.handset ≠ 7) ∧ (ln.records.get 7).online = false ∧ (ln.records.get 8).misses < 2 ∧
        ln.slot = some ⟨8, false, none, false⟩) ∧
    HandsetRecord.offline.online = false ∧
    (({ online none with misses := 2 }).online = true ∧ 2 ≤ ({ online none with misses := 2 }).misses) := by decide

/-- IDLE from handset 9 with a sequence bit. -/
def idle9 (bit : Byte) : List RxChar := ([9, 0, bit, 0, 9 ^^^ bit] : List Byte).map char

/-- The bytes of a message before its check byte, with the check byte. -/
def checked (body : List Byte) : List RxChar := (body ++ [body.foldl (· ^^^ ·) 0]).map char

/-- Replies cut short, with a bad length character, and whole; garbled ones by each of the conditions, and sound
ones of each kind. -/
theorem witness_HandsetRepliesAreJudged_replies :
    (idle9 0).take 3 = [char 9, char 0, char 0] ∧
    ((request9.take 3).length = 3 ∧ request9 = request9.take 3 ++ char 7 :: request9.drop 4 ∧
      7 + 1 ≤ (request9.drop 4).length ∧ (request9.drop 4).dropLast.length < 7 + 1) ∧
    ((char 7).parity = true ∧ ({ char 7 with parity := false }).parity = false ∧ ({ char 7 with stop := false }).stop = false ∧
      ({ char 7 with overrun := true }).overrun = true) ∧
    (request9.map (·.data) = [9, 1, 1, 7] ++ [3, 46, 31, 1, 1, 254, 0] ++ [194] ∧
      (194 : Byte) = ([9, 1, 1, 7] ++ [3, 46, 31, 1, 1, 254, 0] : List Byte).foldl (· ^^^ ·) 0 ∧
      (9 : Byte).toNat = (8 : HandsetId).val + 1) ∧
    ((2 : Byte) ≠ 0 ∧ (2 : Byte) ≠ 1 ∧ (10 : Byte).toNat ≠ (8 : HandsetId).val + 1) ∧
    ((4, 0) ∉ [(0, 0), (1, 7), (2, 1), (3, 0)] ∧ (1, 6) ∉ [(0, 0), (1, 7), (2, 1), (3, 0)] ∧
      (0, 1) ∉ [(0, 0), (1, 7), (2, 1), (3, 0)]) := by decide +kernel

/-- A preset of 7 and one of −128 are held within −6..+6 (R141, R180), and one without its present byte is absent. -/
theorem test_presets_are_clamped :
    (([7, 128] : List Byte).map fun p => judgeReply 8 (checked [9, 1, 1, 7, 0, 0, 1, 0, 2, p, 255])) =
      [some (true, .request 1 false (some 6) true), some (true, .request 1 false (some (-6)) true)] ∧
    judgeReply 8 (checked [9, 1, 0, 7, 255, 255, 255, 128, 0, 5, 0]) =
      some (false, .request 16777215 true none false) := by decide +kernel

theorem witness_HandsetRepliesAreJudged :
    completeReply (idle9 0).dropLast = none ∧ completeReply (idle9 0) = some (idle9 0) ∧
    judgeReply 8 (idle9 2) = none ∧ judgeReply 8 (idle9 1) = some (true, .idle) ∧
    ((judgeReply 8 request9).map (·.1) = some true ∧ (online (some true)).bit = some true) ∧
    (HandsetRecord.offline.online = false ∧ ({ online none with misses := 1 }).misses < 2 ∧
      2 ≤ ({ online none with misses := 2 }).misses) := by decide +kernel

/-- Messages from handset 9 with sequence bit 1. -/
def cancel9 : List RxChar := ([9, 2, 1, 1, 250, 241] : List Byte).map char
def ask9 : List RxChar := ([9, 3, 1, 0, 11] : List Byte).map char

/-- A REQUEST of song 999,999, and one of song 1,000,000. -/
def request999999 : List RxChar := ([9, 1, 1, 7, 15, 66, 63, 0, 0, 0, 0, 124] : List Byte).map char
def request1000000 : List RxChar := ([9, 1, 1, 7, 15, 66, 64, 0, 0, 0, 0, 3] : List Byte).map char

theorem witness_NewMessagesAreActedOn :
    ((online (some false)).bit ≠ some true ∧ (online none).bit ≠ some false ∧ HandsetRecord.offline.bit ≠ some true) ∧
    (completeReply cancel9 = some cancel9 ∧ judgeReply 8 cancel9 = some (true, .cancel 250)) ∧
    judgeReply 8 ask9 = some (true, .statusAsk) ∧
    judgeReply 8 request999999 = some (true, .request 999999 false none false) ∧
    judgeReply 8 request1000000 = some (true, .request 1000000 false none false) := by decide +kernel

theorem witness_RequestsAreAdmitted :
    (up.room 3).phase = .dark ∧ 32 ≤ (List.replicate 32 (entry 1 3 .queued)).length ∧
    ((∃ e ∈ admission.queue.entries, e.song = 120505) ∧ admission.settings.allowRepeats = false) ∧
    (∀ e ∈ admission.queue.entries, e.song ≠ 88001) ∧
    ((3 : HandsetId).val + 1 ≠ 15 ∧ ({ admission with settings := { admission.settings with handsetLimit := 1 } }).settings.handsetLimit ≤
      (admission.queue.entries.filter fun e =>
        e.owner = (3 : HandsetId) && (e.state = .queued || e.state = .offered)).length) := by decide

/-- The staff request with priority of the admission checks takes ticket 44 behind two entries, and a plain one
the end. -/
theorem witness_RequestsAreAdmitted_admitted :
    ((part 3 admission).room 3).phase ≠ .dark ∧ ((part 3 admission).room 3).queue.entries.length < 32 ∧
    (part 3 admission).entriesUsed < 96 ∧ (14 : HandsetId).val + 1 = 15 ∧
    (∀ e ∈ admission.queue.entries, e.ticket ≠ 44) ∧ 44 = (admission.queue.counter - 1 + 0) % 250 + 1 ∧
    (2 ≤ admission.queue.entries.length ∧ (∀ e ∈ admission.queue.entries.drop 2, e.priority = false) ∧
      (admission.queue.entries[1]?).any (fun e => e.priority) = true) ∧
    (admission.queue.entries.filter fun e =>
      e.owner = (3 : HandsetId) && (e.state = .queued || e.state = .offered)).length < admission.settings.handsetLimit := by
  decide

theorem witness_CancelsRemoveAnEntry :
    (∀ e ∈ (up.room 0).queue.entries, e.ticket ≠ 250) ∧
    (three.queue.entries = [entry 1 3 .playing] ++ entry 2 4 .queued :: [entry 3 5 .queued] ∧
      (∀ k ∈ [entry 1 3 .playing] ++ [entry 3 5 .queued], k.ticket ≠ 2) ∧ (entry 2 4 .queued).owner ≠ (5 : HandsetId) ∧
      (5 : HandsetId).val + 1 ≠ 15) ∧
    ((entry 2 4 .queued).owner = (4 : HandsetId) ∧ (14 : HandsetId).val + 1 = 15) ∧
    (three.queue.entries = [] ++ entry 1 3 .playing :: [entry 2 4 .queued, entry 3 5 .queued] ∧
      ∀ k ∈ [] ++ [entry 2 4 .queued, entry 3 5 .queued], k.ticket ≠ 1) := by decide

theorem witness_NewsJoinsTheOutbox :
    HandsetRecord.offline.online = false ∧
    (({ online none with outbox := List.replicate 3 ⟨.nextUp, 1⟩ }).outbox.length < 4) ∧
    4 ≤ ({ online none with outbox := List.replicate 4 ⟨.nextUp, 1⟩ }).outbox.length := by decide

/-! Every invariant holds of a part that plays in room 2, holds room 3, and has a command waiting. -/

/-- Such a part. -/
def busyPart : State := { (part 2 (playing 5)).setRoom 3 (paused 9 ⟨true, true⟩) with pending := [.pause 2 5 []] }

theorem witness_StepKeeps_link : busyPart.link.QueuesAgree ∧ busyPart.link.Busy ∧ busyPart.HeldInReset := by
  decide

theorem witness_StepKeeps_rooms :
    (∀ r : RoomId, (busyPart.room r).ReasonsAgree ∧ (busyPart.room r).TimersAgree) ∧
    (∀ r : RoomId, (busyPart.room r).queue.Ordered) ∧ (∀ r : RoomId, (busyPart.room r).HeadAgrees) ∧
    (∀ r : RoomId, (busyPart.room r).WithinLimits) ∧ (∀ r : RoomId, (busyPart.room r).DarkIsEmpty) ∧
    (∀ r : RoomId, (busyPart.room r).lyrics.InOrder) ∧
    busyPart.HandsetsAgree := by decide

theorem witness_StepKeeps_values :
    busyPart.EveryRoom (fun rm => rm.singers.one.CountsAgree ∧ rm.singers.two.CountsAgree ∧
      rm.lyrics.RowsAgree ∧ rm.lyrics.InOrder) ∧
    busyPart.PoolsAgree ∧ busyPart.glyphs.Filled ∧ busyPart.EveryRoom Room.ValuesInRange ∧ busyPart.handed = [] := by
  decide +kernel

theorem witness_StepKeeps_video :
    busyPart.EveryRoom (fun rm => rm.video.RolesAgree ∧ rm.video.CountAgrees ∧ rm.video.PicturesWf) := by
  decide

/-- An open record with the flags of the first and the last segment set. -/
theorem witness_StepKeeps_count :
    (∀ v ∈ [frames .filling .free .front (some ⟨7, BitVec.twoPow 2880 0 ||| BitVec.twoPow 2880 2879, 2⟩) none],
      v.RolesAgree ∧ v.CountAgrees) := by decide +kernel

theorem witness_StepKeeps_mics :
    busyPart.EveryRoom (fun rm => rm.mics.one.InRange) ∧ busyPart.EveryRoom (fun rm => rm.mics.two.InRange) := by
  decide +kernel

theorem witness_StepKeeps_engine : busyPart.EngineAgrees := by decide

theorem witness_StepKeeps_step : ∃ t, step busyPart = .next t := ⟨_, rfl⟩

end Sys2Proof.Tests
end

section
/-! SUPPORT. What PAUSE does (R9, R98): the holding of a room as one written-out update of its state, and the
command in each room state. -/

namespace Sys2Proof.Machine

/-! ## Rules of the shared operations -/

/-- Of two settings of a room the second stands. -/
@[simp] theorem State.setRoom_setRoom (s : State) (r : RoomId) (x y : Room) :
    (s.setRoom r x).setRoom r y = s.setRoom r y := by
  simp [State.setRoom]

/-- Raising a room's event changes the link alone, by what the room's mask lets it hear (R170). -/
theorem State.raise_eq_hear (s : State) (r : RoomId) (k : NoticeKind) :
    s.raise r k = { s with link := s.link.hear (s.room r).mask r k } :=
  s.raise_eq r k

/-- The room's channels are hushed and its running analysis made void, and nothing else changes (R98). -/
theorem State.clearRings_eq (s : State) (r : RoomId) :
    s.clearRings r = { s.setRoom r (s.room r).hushed with engine := s.engine.voided r } := rfl

@[simp] theorem State.room_clearRings_self (s : State) (r : RoomId) :
    (s.clearRings r).room r = (s.room r).hushed :=
  State.room_setRoom_self s r (s.room r).hushed

/-- A hold of a PLAYING room (R8, R9): the room held and hushed, its analysis void, PAUSED heard. -/
theorem State.hold_eq (s : State) (r : RoomId) (why : PauseReasons) :
    s.hold r why =
      { s.setRoom r
          { (s.room r).hushed with phase := .paused, reasons := why, markTimer := .stopped } with
        engine := s.engine.voided r
        link := s.link.hear (s.room r).mask r .paused } := by
  unfold State.hold State.modRoom
  rw [State.raise_eq_hear, State.room_clearRings_self, State.clearRings_eq, State.room_setRoom_self,
    State.setRoom_setRoom]
  rfl

/-- A room's command of an allowed length, taken under credit, ends in its effect, its answer and the uplink's
choice (R166, R169). -/
theorem finish_command_room {b tag : Byte} {r : RoomId} {s : State} (k : RoomCommand) {args : List Byte}
    (credit : s.takesCells = true) (room : b.toNat = r.val)
    (length : lengthAllowed k.argBytes args = true) :
    finish (s.command (.room k) b tag args) =
      .next ((k.carry r args s).1.answer ⟨tag, b, (k.carry r args s).2, k.code, []⟩).startUplink := by
  rw [finish_eq, State.command_room k credit room length]

/-! ## PAUSE by room state (R9) -/

theorem State.pauseSong_of_playing {s : State} {r : RoomId} (h : (s.room r).phase = .playing) :
    s.pauseSong r = (s.hold r ⟨false, true⟩, .ok) := by
  simp only [State.pauseSong, h]

theorem State.pauseSong_of_paused {s : State} {r : RoomId} (h : (s.room r).phase = .paused) :
    s.pauseSong r =
      (s.setRoom r { s.room r with reasons := ⟨(s.room r).reasons.stall, true⟩ }, .ok) := by
  simp only [State.pauseSong, h, State.modRoom]

/-- With no song running or held, PAUSE changes nothing and is refused. -/
theorem State.pauseSong_elsewhere {s : State} {r : RoomId}
    (h : (s.room r).phase = .dark ∨ (s.room r).phase = .attract ∨ (s.room r).phase = .cueing ∨
      (s.room r).phase = .result) : s.pauseSong r = (s, .busy) := by
  rcases h with h | h | h | h <;> simp only [State.pauseSong, h]

/-- PAUSE of a room, taken under credit: the room controller's meaning and its status answered. -/
theorem exec_pause {b tag : Byte} {r : RoomId} {s : State} (credit : s.takesCells = true)
    (room : b.toNat = r.val) :
    exec (.pause b tag []) s =
      .next ((s.pauseSong r).1.answer ⟨tag, b, (s.pauseSong r).2, 68, []⟩).startUplink :=
  finish_command_room .pause credit room rfl

/-- Settles O24, by the room state in which PAUSE finds the room. -/
theorem pauseHoldsTheRoom : Obligations.PauseHoldsTheRoom := by
  intro s b tag r credit room
  rw [exec_pause credit room]
  refine ⟨fun playing => ?_, fun paused => ?_, fun elsewhere => ?_⟩
  · rw [State.pauseSong_of_playing playing, State.hold_eq]
  · rw [State.pauseSong_of_paused paused]
  · rw [State.pauseSong_elsewhere elsewhere]

end Sys2Proof.Machine
end

section
/-! SUPPORT. What PITCH_CELLS does (R107, R108): the reading back of a table from its 180 bytes, the two checks
of a table as conditions on its cells, and the command under each of its checks. -/

namespace Sys2Proof.Machine

/-! ## The pairs of a payload (11.2) -/

/-- The bytes that carry a table of cells, its lows and highs in turn. -/
def pitchCellBytes (cells : List PitchCell) : List Byte := cells.flatMap fun c => be2 c.low ++ be2 c.high

theorem pitchCellBytes_cons (c : PitchCell) (cs : List PitchCell) :
    pitchCellBytes (c :: cs) = be2 c.low ++ (be2 c.high ++ pitchCellBytes cs) := by
  simp [pitchCellBytes]

@[simp] theorem length_pitchCellBytes (cells : List PitchCell) :
    (pitchCellBytes cells).length = 4 * cells.length := by
  induction cells with
  | nil => rfl
  | cons c cs ih => simp [pitchCellBytes_cons, be2, ih]; omega

/-- Two bytes that carry a 16-bit number read as it. -/
theorem u16_be2_append {n : Nat} (h : n ≤ 65535) (rest : List Byte) : u16 (be2 n ++ rest) 0 = n := by
  have n_eq : 256 * (n / 256 % 256) + n % 256 = n := by omega
  simpa [u16, u8, be2, byteOf] using n_eq

/-- Behind a prefix the two bytes at an offset are those of the rest. -/
theorem u16_append_right (bs rest : List Byte) (i : Nat) : u16 (bs ++ rest) (bs.length + i) = u16 rest i := by
  simp [u16, u8, Nat.add_assoc, List.getElem?_append_right]

/-- The cell that a payload carries at the place of a note. -/
def pitchCellAt (bs : List Byte) (k : Nat) : PitchCell := ⟨u16 bs (4 * k), u16 bs (4 * k + 2)⟩

theorem readPitchCells_eq (bs : List Byte) :
    readPitchCells bs = if bs.length = 180 then some ((List.range 45).map (pitchCellAt bs)) else none := rfl

/-- At its first place a table's payload carries its first cell. -/
theorem pitchCellAt_zero {c : PitchCell} (cs : List PitchCell) (low : c.low ≤ 65535) (high : c.high ≤ 65535) :
    pitchCellAt (pitchCellBytes (c :: cs)) 0 = c := by
  rw [pitchCellBytes_cons]
  exact congrArg₂ PitchCell.mk (u16_be2_append low _)
    ((u16_append_right (be2 c.low) _ 0).trans (u16_be2_append high _))

/-- At every later place it carries what the payload of the other cells does one place before. -/
theorem pitchCellAt_succ (c : PitchCell) (cs : List PitchCell) (k : Nat) :
    pitchCellAt (pitchCellBytes (c :: cs)) (k + 1) = pitchCellAt (pitchCellBytes cs) k := by
  have later (i : Nat) : u16 (pitchCellBytes (c :: cs)) (4 + i) = u16 (pitchCellBytes cs) i := by
    rw [pitchCellBytes_cons, ← List.append_assoc]
    exact u16_append_right (be2 c.low ++ be2 c.high) _ i
  simp only [pitchCellAt, ← later]
  congr 2 <;> omega

/-- The cells that a table's payload carries are the table's. -/
theorem map_pitchCellAt_bytes {cells : List PitchCell} (words : ∀ c ∈ cells, c.low ≤ 65535 ∧ c.high ≤ 65535) :
    (List.range cells.length).map (pitchCellAt (pitchCellBytes cells)) = cells := by
  induction cells with
  | nil => rfl
  | cons c cs ih =>
    obtain ⟨⟨low, high⟩, others⟩ := List.forall_mem_cons.1 words
    rw [List.length_cons, List.range_succ_eq_map, List.map_cons, List.map_map, pitchCellAt_zero cs low high]
    exact congrArg (c :: ·) ((List.map_congr_left fun k _ => pitchCellAt_succ c cs k).trans (ih others))

/-- The 45 cells of a payload are read back from it. -/
theorem readPitchCells_bytes {cells : List PitchCell} (length : cells.length = 45)
    (words : ∀ c ∈ cells, c.low ≤ 65535 ∧ c.high ≤ 65535) : readPitchCells (pitchCellBytes cells) = some cells := by
  have whole : (pitchCellBytes cells).length = 180 := by rw [length_pitchCellBytes, length]
  rw [readPitchCells_eq, if_pos whole, ← length, map_pitchCellAt_bytes words]

theorem readPitchCells_of_length_ne {bs : List Byte} (h : bs.length ≠ 180) : readPitchCells bs = none := if_neg h

/-! ## The checks of a table (R108) -/

theorem cellsInRange_iff {cells : List PitchCell} :
    cellsInRange cells = true ↔ ∀ c ∈ cells, 1 ≤ c.low ∧ c.low ≤ c.high ∧ c.high ≤ 4095 := by
  simp [cellsInRange, and_assoc]

/-- A contiguous table is a chain of cells, each next high one less than the low before it. -/
theorem cellsContiguous_iff_isChain {cells : List PitchCell} :
    cellsContiguous cells = true ↔ cells.IsChain fun c d => d.high + 1 = c.low := by
  match cells with
  | [] => simp [cellsContiguous]
  | [_] => simp [cellsContiguous]
  | c :: d :: cs => simp [cellsContiguous, cellsContiguous_iff_isChain (cells := d :: cs)]

theorem cellsContiguous_iff {cells : List PitchCell} (length : cells.length = 45) :
    cellsContiguous cells = true ↔
      ∀ i < 44, (cells.getD (i + 1) ⟨0, 0⟩).high + 1 = (cells.getD i ⟨0, 0⟩).low := by
  rw [cellsContiguous_iff_isChain, List.isChain_iff_getElem]
  have cellAt (i : Nat) (h : i < 45) : cells.getD i ⟨0, 0⟩ = cells[i] := List.getD_eq_getElem ..
  refine ⟨fun chain i h => ?_, fun pairs i h => ?_⟩
  · rw [cellAt i (by omega), cellAt (i + 1) (by omega)]; exact chain i (by omega)
  · rw [← cellAt i (by omega), ← cellAt (i + 1) (by omega)]; exact pairs i (by omega)

/-- No song is open exactly when none is open in any of the four rooms. -/
theorem State.noSongOpen_iff {s : State} :
    s.noSongOpen = true ↔ ∀ r : RoomId, (s.room r).phase.songOpen = false := by
  simp [State.noSongOpen, Fin.forall_fin_succ, and_assoc]

/-! ## PITCH_CELLS by its checks (R108) -/

theorem State.pitchCells_of_songOpen {s : State} {args : List Byte} {r : RoomId}
    (opened : (s.room r).phase.songOpen = true) : s.pitchCells args = (s, .busy) := by
  have busy : s.noSongOpen = false := by
    rw [Bool.eq_false_iff, Ne, State.noSongOpen_iff]
    intro closed
    exact Bool.false_ne_true ((closed r).symm.trans opened)
  simp [State.pitchCells, busy]

theorem State.pitchCells_of_length_ne {s : State} {args : List Byte} (closed : s.noSongOpen = true)
    (length : args.length ≠ 180) : s.pitchCells args = (s, .badTable) := by
  simp [State.pitchCells, closed, readPitchCells_of_length_ne length]

/-- A table that passes both checks is loaded. -/
theorem State.pitchCells_of_good {s : State} {args : List Byte} {cells : List PitchCell}
    (closed : s.noSongOpen = true) (read : readPitchCells args = some cells)
    (range : cellsInRange cells = true) (contiguous : cellsContiguous cells = true) :
    s.pitchCells args = ({ s with engine := { s.engine with table := some cells } }, .ok) := by
  simp [State.pitchCells, closed, read, range, contiguous]

/-- A table that fails a check is refused. -/
theorem State.pitchCells_of_bad {s : State} {args : List Byte} {cells : List PitchCell}
    (closed : s.noSongOpen = true) (read : readPitchCells args = some cells)
    (bad : ¬(cellsInRange cells = true ∧ cellsContiguous cells = true)) :
    s.pitchCells args = (s, .badTable) := by
  simp [State.pitchCells, closed, read, bad]

/-- PITCH_CELLS taken under credit: the engine's meaning and its status answered. -/
theorem exec_pitchCells {tag : Byte} {args : List Byte} {s : State} (credit : s.takesCells = true) :
    exec (.pitchCells 15 tag args) s =
      .next ((s.pitchCells args).1.answer ⟨tag, 15, (s.pitchCells args).2, 48, []⟩).startUplink :=
  congrArg finish (State.command_device .pitchCells credit rfl)

/-- Settles O17, by the checks of R108 in their order: a song open, the length, and the table's two conditions. -/
theorem pitchCellsLoaded : Obligations.PitchCellsLoaded := by
  intro s tag args credit
  rw [exec_pitchCells credit]
  refine ⟨fun ⟨r, opened⟩ => ?busy, fun allClosed => ?_⟩
  case busy => rw [State.pitchCells_of_songOpen opened]
  have closed := State.noSongOpen_iff.2 allClosed
  refine ⟨fun length => ?short, fun cells length carried words => ?_⟩
  case short => rw [State.pitchCells_of_length_ne closed length]
  have read : readPitchCells args = some cells := carried ▸ readPitchCells_bytes length words
  refine ⟨fun range contiguous => ?loaded, fun bad => ?refused⟩
  case loaded =>
    rw [State.pitchCells_of_good closed read (cellsInRange_iff.2 range) ((cellsContiguous_iff length).2 contiguous)]
  case refused =>
    have fails : ¬(cellsInRange cells = true ∧ cellsContiguous cells = true) := by
      rw [cellsInRange_iff, cellsContiguous_iff length]
      rintro ⟨range, contiguous⟩
      rcases bad with ⟨c, member, outside⟩ | ⟨i, bound, gap⟩
      · exact outside (range c member)
      · exact gap (contiguous i bound)
    rw [State.pitchCells_of_bad closed read fails]

end Sys2Proof.Machine
end

section
/-! SUPPORT. What grading does (R121, R122): the octave fold as the unique split of a deviation into whole octaves
and a rest, the grade of a voiced frame by that rest, and the counting of a grade below and at the limit of G. -/

namespace Sys2Proof.Machine

/-! ## The octave fold (R121) -/

/-- Rounding halves toward zero treats both signs alike. -/
theorem octaves_neg (d : Int) : octaves (-d) = -octaves d := by
  simp [octaves, Int.sign_neg]

/-- Upward, halves toward zero leave a rest of -5 to 6. -/
theorem octaves_of_nonneg {d o f : Int} (sum : d = 12 * o + f) (up : 0 ≤ d) (low : -5 ≤ f) (high : f ≤ 6) :
    octaves d = o := by
  have rounded : (((d.natAbs + 5) / 12 : Nat) : Int) = o := by omega
  rw [octaves, rounded]
  obtain rfl | positive := up.eq_or_lt
  · have zero : o = 0 := by omega
    simp [zero]
  · rw [Int.sign_eq_one_of_pos positive, one_mul]

/-- Downward they leave a rest of -6 to 5: the upward case of the opposite deviation. -/
theorem octaves_of_neg {d o f : Int} (sum : d = 12 * o + f) (down : d < 0) (low : -6 ≤ f) (high : f ≤ 5) :
    octaves d = o := by
  have opposite : octaves (-d) = -o := octaves_of_nonneg (f := -f) (by omega) (by omega) (by omega) (by omega)
  rw [octaves_neg] at opposite
  exact neg_injective opposite

/-- Allowed, the fold takes the whole octaves away and leaves the rest. -/
theorem folded_on {d o f : Int} (sum : d = 12 * o + f)
    (rest : if 0 ≤ d then -5 ≤ f ∧ f ≤ 6 else -6 ≤ f ∧ f ≤ 5) : folded true d = f := by
  have whole : octaves d = o := by
    split at rest
    next up => exact octaves_of_nonneg sum up rest.1 rest.2
    next down => exact octaves_of_neg sum (not_le.1 down) rest.1 rest.2
  calc folded true d = d - 12 * octaves d := rfl
    _ = f := by rw [whole, sum, add_sub_cancel_left]

/-- The rest a deviation is graded by, with the allowance on or off. -/
theorem folded_of_rest {allowance : Bool} {d o f : Int}
    (rest : if allowance then d = 12 * o + f ∧ (if 0 ≤ d then -5 ≤ f ∧ f ≤ 6 else -6 ≤ f ∧ f ≤ 5) else f = d) :
    folded allowance d = f := by
  cases allowance with
  | false => exact ((if_neg Bool.false_ne_true).mp rest).symm
  | true =>
    obtain ⟨sum, within⟩ := (if_pos rfl).mp rest
    exact folded_on sum within

/-! ## The grade of a frame (R121) -/

theorem gradeOf_unvoiced (t : Settings) (r : Int) : gradeOf t r none = .silent := rfl
theorem gradeOf_under (t : Settings) (r : Int) : gradeOf t r (some .under) = .miss := rfl
theorem gradeOf_over (t : Settings) (r : Int) : gradeOf t r (some .over) = .miss := rfl

/-- A voiced frame is graded by the size of its folded deviation, NEAR at just one above the tolerance. -/
theorem gradeOf_note {t : Settings} {r f : Int} {n : Nat} (fold : folded t.octaveAllowance ((n : Int) - r) = f) :
    gradeOf t r (some (.note n)) =
      if f.natAbs ≤ t.tolerance then .hit else if f.natAbs = t.tolerance + 1 then .near else .miss := by
  subst fold
  refine ite_congr rfl (fun _ => rfl) fun outside => ?_
  exact if_congr (by omega) rfl rfl

/-! ## The counting of a grade (R122) -/

theorem Singer.count_of_max {x : Singer} (g : Grade) (full : Config.counterMax ≤ x.graded) : x.count g = x :=
  if_neg (not_lt.2 full)

/-- Below the limit G and the counter of the grade rise together, and no other counter. -/
theorem Singer.count_of_lt {x : Singer} (g : Grade) (below : x.graded < Config.counterMax) :
    x.count g =
      { x with
        graded := x.graded + 1
        hit := x.hit + if g = .hit then 1 else 0, near := x.near + if g = .near then 1 else 0
        miss := x.miss + if g = .miss then 1 else 0
        silent := x.silent + if g = .silent then 1 else 0 } := by
  refine (if_pos below).trans ?_
  cases g <;> rfl

/-- Settles O49, by the rest that the octave fold leaves of a deviation and by whether G stands at its limit. -/
theorem gradesFollowTheDeviation : Obligations.GradesFollowTheDeviation :=
  ⟨fun _ _ _ _ _ rest => gradeOf_note (folded_of_rest rest),
    fun t ref => ⟨gradeOf_unvoiced t ref, gradeOf_under t ref, gradeOf_over t ref⟩,
    fun _ g => ⟨Singer.count_of_max g, Singer.count_of_lt g⟩⟩

end Sys2Proof.Machine
end

section
/-! SUPPORT. What offers do (R156, R158): the offer of a head as one written-out update of the state, the trigger
by whether an offer can be made, and OFFER_POLL by whether the head is OFFERED already. -/

namespace Sys2Proof.Machine

/-! ## Heads of queues -/

theorem RequestQueue.head?_of_entries {q : RequestQueue} {e : Entry} {es : List Entry}
    (entries : q.entries = e :: es) : q.head? = some e :=
  congrArg List.head? entries

theorem RequestQueue.setHead_of_entries {q : RequestQueue} {e : Entry} {es : List Entry}
    (entries : q.entries = e :: es) (st : EntryState) :
    q.setHead st = { q with entries := { e with state := st } :: es } := by
  simp only [RequestQueue.setHead, entries]

/-! ## Offer triggers (R156) -/

/-- An offer of the head: the entry OFFERED, the timer started, NEXT_UP placed in the room's line, OFFER heard. -/
theorem State.makeOffer_eq {s : State} {r : RoomId} {e : Entry} {es : List Entry}
    (entries : (s.room r).queue.entries = e :: es) :
    s.makeOffer r e =
      { s.setRoom r
          { s.room r with
            queue := { (s.room r).queue with
              entries := { e with state := .offered } :: es
              offerTimer := .running (1000 * (s.room r).settings.offerTimeout) }
            line := (s.room r).line.placeNews e.owner ⟨.nextUp, e.ticket⟩ } with
        link := s.link.hear (s.room r).mask r .offer } := by
  simp only [State.makeOffer, State.placeNews, State.modRoom, State.room_setRoom_self, State.setRoom_setRoom,
    State.raise_eq_hear, State.setRoom_link, RequestQueue.setHead_of_entries entries]

theorem State.offerTrigger_of_queued {s : State} {r : RoomId} {e : Entry}
    (attract : (s.room r).phase = .attract) (free : (s.room r).queue.suspended = false)
    (head : (s.room r).queue.head? = some e) (queued : e.state = .queued) :
    s.offerTrigger r = s.makeOffer r e := by
  rcases s.offerTrigger_cases r with ⟨e', -, -, head', -, made⟩ | ⟨idle, -⟩
  · obtain rfl : e' = e := Option.some.inj (head'.symm.trans head)
    exact made
  · exact absurd ⟨attract, free, e, head, queued⟩ idle

/-- Where one of the three conditions of R156 fails, a trigger does nothing. -/
theorem State.offerTrigger_idle {s : State} {r : RoomId}
    (idle : (s.room r).phase ≠ .attract ∨ (s.room r).queue.suspended = true ∨
      ∀ e ∈ (s.room r).queue.head?, e.state ≠ .queued) : s.offerTrigger r = s := by
  rcases s.offerTrigger_cases r with ⟨e, attract, free, head, queued, -⟩ | ⟨-, unchanged⟩
  · rcases idle with other | suspended | taken
    · exact absurd attract other
    · exact absurd (free.symm.trans suspended) Bool.false_ne_true
    · exact absurd queued (taken e head)
  · exact unchanged

/-! ## OFFER_POLL by the state of the head (R158) -/

/-- The room's offers no longer suspended (R155). -/
def State.liftSuspension (r : RoomId) (s : State) : State :=
  s.setRoom r { s.room r with queue := { (s.room r).queue with suspended := false } }

/-- OFFER_POLL lifts the suspension, and then raises OFFER again or is a trigger. -/
theorem State.offerPoll_eq (s : State) (r : RoomId) :
    s.offerPoll r =
      (if (s.room r).phase = .attract ∧ (s.room r).queue.headIs .offered = true then
        { s.liftSuspension r with link := s.link.hear (s.room r).mask r .offer }
      else (s.liftSuspension r).offerTrigger r, .ok) := by
  simp only [State.offerPoll, State.room_modRoom_self, State.raise_eq_hear]
  exact (apply_ite (·, Status.ok) _ _ _).symm

/-- OFFER_POLL of a room, taken under credit: the queue manager's meaning answered OK. -/
theorem exec_offerPoll {b tag : Byte} {r : RoomId} {s : State} (credit : s.takesCells = true)
    (room : b.toNat = r.val) :
    exec (.offerPoll b tag []) s =
      .next ((s.offerPoll r).1.answer ⟨tag, b, .ok, 80, []⟩).startUplink := by
  have ok : (s.offerPoll r).2 = .ok := by rw [State.offerPoll_eq]
  rw [← ok]
  exact finish_command_room .offerPoll credit room rfl

/-- Settles O28, by the three conditions of an offer trigger and by whether OFFER_POLL finds an OFFERED head. -/
theorem offerPollOffersTheHead : Obligations.OfferPollOffersTheHead := by
  intro s r
  refine ⟨fun e es attract free entries queued => ?offer, State.offerTrigger_idle, ?poll⟩
  case offer =>
    rw [State.offerTrigger_of_queued attract free (RequestQueue.head?_of_entries entries) queued,
      State.makeOffer_eq entries]
  case poll =>
    rintro b tag credit room u rfl
    rw [exec_offerPoll credit room, State.offerPoll_eq]
    refine ⟨fun attract offered => ?_, fun other => ?_⟩
    · rw [if_pos ⟨attract, offered⟩]; rfl
    · have trigger : ¬((s.room r).phase = .attract ∧ (s.room r).queue.headIs .offered = true) := by
        rintro ⟨attract, offered⟩
        exact other.elim (· attract) fun none => Bool.false_ne_true (none.symm.trans offered)
      rw [if_neg trigger]; rfl

end Sys2Proof.Machine
end

section
/-! SUPPORT. What QUEUE_MOVE does (R154): the entry that a ticket names, the queue with that entry put back at a
position, a queue change as one update of the state before its offer trigger, and the command by its checks. -/

namespace Sys2Proof.Machine

/-- A clamp between bounds in order is the greater of the lower bound and what the upper one leaves. -/
theorem clampNat_eq_max_min {lo hi : Nat} (h : lo ≤ hi) (n : Nat) : clampNat lo hi n = max lo (min hi n) := by
  unfold clampNat; split_ifs <;> omega

/-! ## The entry with a ticket -/

theorem RequestQueue.find?_eq_none {q : RequestQueue} {ticket : Nat}
    (absent : ∀ x ∈ q.entries, x.ticket ≠ ticket) :
    q.find? ticket = none := by
  simpa [RequestQueue.find?] using absent

section

variable {q : RequestQueue} {before after : List Entry} {e : Entry}

theorem RequestQueue.find?_of_split (entries : q.entries = before ++ e :: after)
    (others : ∀ x ∈ before ++ after, x.ticket ≠ e.ticket) : q.find? e.ticket = some e := by
  have ahead : before.find? (fun x => x.ticket = e.ticket) = none := by
    simpa using fun x member => others x (List.mem_append_left after member)
  rw [RequestQueue.find?, entries, List.find?_append, ahead]
  simp

/-! ## The queue with an entry moved -/

/-- The other entries keep their order, and the moved one stands at the position. -/
theorem RequestQueue.moveTo_of_split (entries : q.entries = before ++ e :: after)
    (others : ∀ x ∈ before ++ after, x.ticket ≠ e.ticket) (p : Nat) :
    q.moveTo e p =
      { q with entries := (before ++ after).take (p - 1) ++ e :: (before ++ after).drop (p - 1) } := by
  have taken : q.entries.filter (fun x => x.ticket ≠ e.ticket) = before ++ after := by
    rw [← filter_ticket_of_ne others, entries, List.filter_append, List.filter_append,
      List.filter_cons_of_neg (by simp)]
  rw [RequestQueue.moveTo, taken]; rfl

/-- Only at the position where the entry stood is the moved queue the one there was. -/
theorem RequestQueue.moveTo_entries_eq_iff (entries : q.entries = before ++ e :: after)
    (others : ∀ x ∈ before ++ after, x.ticket ≠ e.ticket) {p : Nat} (low : 1 ≤ p) (high : p ≤ q.entries.length) :
    (q.moveTo e p).entries = q.entries ↔ p = before.length + 1 := by
  have apart : e ∉ before ++ after := fun member => others e member rfl
  have within : p - 1 ≤ (before ++ after).length := by simp [entries] at high ⊢; omega
  rw [RequestQueue.moveTo_of_split entries others, entries,
    List.append_cons_inj_of_notMem (fun member => apart (List.mem_of_mem_take member))
      fun member => apart (List.mem_of_mem_drop member)]
  refine ⟨fun ⟨front, _⟩ => ?_, fun place => ?_⟩
  · have counted := congrArg List.length front
    rw [List.length_take_of_le within] at counted
    omega
  · rw [place, Nat.add_sub_cancel, List.take_left, List.drop_left]
    exact ⟨rfl, rfl, rfl⟩

/-- A head past QUEUED keeps position 1. -/
theorem RequestQueue.lowest_of_split (entries : q.entries = before ++ e :: after) :
    q.lowest = if q.headIs .queued then 1 else 2 := by
  have ⟨x, head⟩ : ∃ x, q.head? = some x := by
    cases before with
    | nil => exact ⟨e, RequestQueue.head?_of_entries entries⟩
    | cons b bs => exact ⟨b, RequestQueue.head?_of_entries entries⟩
  by_cases queued : x.state = .queued <;>
    simp [RequestQueue.lowest, RequestQueue.headIs, head, Entry.active, queued]

/-- A QUEUED entry stands at or behind the lowest position, so that one is within the queue. -/
theorem RequestQueue.lowest_le_length (entries : q.entries = before ++ e :: after) (queued : e.state = .queued) :
    q.lowest ≤ q.entries.length := by
  rw [RequestQueue.lowest_of_split entries]
  cases before with
  | nil => simp [RequestQueue.headIs, RequestQueue.head?_of_entries entries, queued, entries]
  | cons b bs =>
    have two : 2 ≤ q.entries.length := by simp [entries]; omega
    split <;> omega

theorem RequestQueue.one_le_lowest (q : RequestQueue) : 1 ≤ q.lowest := by
  unfold RequestQueue.lowest; split <;> decide

end

/-! ## Queue changes (R151) -/

/-- A queue set anew in a queue change: QUEUE_CHANGED heard and the suspension lifted, and then an offer trigger. -/
theorem State.queueChange_modRoom_queue (s : State) (r : RoomId) (q : RequestQueue) :
    (s.modRoom r fun rm => { rm with queue := q }).queueChange r =
      ({ s.setRoom r { s.room r with queue := { q with suspended := false } } with
        link := s.link.hear (s.room r).mask r .queueChanged }).offerTrigger r := by
  have noted : (s.modRoom r fun rm => { rm with queue := q }).noteQueueChange r =
      { s.setRoom r { s.room r with queue := { q with suspended := false } } with
        link := s.link.hear (s.room r).mask r .queueChanged } := by
    rw [State.noteQueueChange, State.modRoom, State.raise_room, State.raise_eq_hear, State.room_modRoom_self,
      ← State.setRoom_setRoom s r { s.room r with queue := q }]
    rfl
  rw [State.queueChange, noted]

/-! ## QUEUE_MOVE by its checks (R154) -/

/-- How a move is answered: clamped when the position is not the target. -/
def moveStatus (position target : Nat) : Status := if position = target then .ok else .okClamped

theorem State.queueMove_of_absent {s : State} {r : RoomId} {ticket : Nat} (target : Nat)
    (absent : ∀ x ∈ (s.room r).queue.entries, x.ticket ≠ ticket) :
    s.queueMove r ticket target = (s, .stale) := by
  simp only [State.queueMove, RequestQueue.find?_eq_none absent]

theorem State.queueMove_of_active {s : State} {r : RoomId} {ticket : Nat} {e : Entry} (target : Nat)
    (found : (s.room r).queue.find? ticket = some e) (active : e.state ≠ .queued) :
    s.queueMove r ticket target = (s, .locked) := by
  simp [State.queueMove, found, Entry.active, active]

/-- A QUEUED entry is moved to its clamped position, as a queue change when the queue is then another. -/
theorem State.queueMove_of_queued {s : State} {r : RoomId} {ticket target p : Nat} {e : Entry}
    (found : (s.room r).queue.find? ticket = some e) (queued : e.state = .queued)
    (position : clampNat (s.room r).queue.lowest (s.room r).queue.entries.length target = p) :
    s.queueMove r ticket target =
      (if ((s.room r).queue.moveTo e p).entries = (s.room r).queue.entries then s
        else (s.modRoom r fun rm => { rm with queue := (s.room r).queue.moveTo e p }).queueChange r,
        moveStatus p target) := by
  subst position
  have waiting : e.active = false := by simp [Entry.active, queued]
  simp only [State.queueMove, found, waiting, Bool.false_eq_true, if_false, moveStatus]
  split <;> rfl

/-- QUEUE_MOVE of a room, taken under credit: the queue manager's meaning and its status answered. -/
theorem exec_queueMove {b tag ticket target : Byte} {r : RoomId} {s : State} (credit : s.takesCells = true)
    (room : b.toNat = r.val) :
    exec (.queueMove b tag [ticket, target]) s =
      .next ((s.queueMove r ticket.toNat target.toNat).1.answer
        ⟨tag, b, (s.queueMove r ticket.toNat target.toNat).2, 82, []⟩).startUplink :=
  finish_command_room .queueMove credit room rfl

/-- Settles O30, by the two checks of R154 and by whether the clamped position is where the entry stood. -/
theorem queueMovePlacesAnEntry : Obligations.QueueMovePlacesAnEntry := by
  intro s b tag ticket target r credit room
  rw [exec_queueMove credit room]
  refine ⟨fun absent => ?stale, fun before after e entries named others => ?_⟩
  case stale => rw [State.queueMove_of_absent _ absent]
  have found : (s.room r).queue.find? ticket.toNat = some e := named ▸ RequestQueue.find?_of_split entries others
  refine ⟨fun active => ?locked, fun low p queued lowest clamped => ?_⟩
  case locked => rw [State.queueMove_of_active _ found active]
  rw [← RequestQueue.lowest_of_split entries] at lowest
  subst lowest
  have ordered := RequestQueue.lowest_le_length entries queued
  have position : clampNat (s.room r).queue.lowest (s.room r).queue.entries.length target.toNat = p :=
    (clampNat_eq_max_min ordered _).trans clamped.symm
  obtain ⟨above, within⟩ := position ▸ clampNat_bounds ordered target.toNat
  have unmoved := RequestQueue.moveTo_entries_eq_iff entries others
    ((RequestQueue.one_le_lowest _).trans above) within
  rw [State.queueMove_of_queued found queued position]
  refine ⟨fun same => ?_, fun elsewhere => ?_⟩
  · rw [if_pos (unmoved.2 same)]; rfl
  · rw [if_neg (mt unmoved.1 elsewhere), State.queueChange_modRoom_queue,
      RequestQueue.moveTo_of_split entries others]
    rfl

end Sys2Proof.Machine
end

section
/-! SUPPORT. What the room controller's shared steps leave, each as one written-out update of the state: the
retiring of the head entry, a song's end and its abort, the expiry of the cue timer, a close and a reset. -/

namespace Sys2Proof.Machine

/-! ## Rooms set anew -/

/-- A room set to what it is. -/
@[simp] theorem State.setRoom_room (s : State) (r : RoomId) : s.setRoom r (s.room r) = s :=
  congrArg (fun v => { s with rooms := v }) (s.rooms_set_room r r.isLt)

/-- A change of a room is the setting of what the change makes of it. -/
theorem State.modRoom_eq (s : State) (r : RoomId) (f : Room → Room) : s.modRoom r f = s.setRoom r (f (s.room r)) := rfl

/-- Of two changes of a room the second is made to what the first leaves. -/
theorem State.modRoom_modRoom (s : State) (r : RoomId) (f g : Room → Room) :
    (s.modRoom r f).modRoom r g = s.setRoom r (g (f (s.room r))) := by
  rw [State.modRoom_eq _ r g, State.room_modRoom_self, State.modRoom_eq, State.setRoom_setRoom]

/-! ## Entries that leave -/

theorem RequestQueue.filter_ticket_of_cons {e : Entry} {es : List Entry} (others : ∀ x ∈ es, x.ticket ≠ e.ticket) :
    (e :: es).filter (fun x => x.ticket ≠ e.ticket) = es := by
  rw [List.filter_cons_of_neg (by simp), filter_ticket_of_ne others]

/-- The head leaves a queue whose other tickets differ from its own by a queue change (R151, R155). -/
theorem RequestQueue.remove_head {q : RequestQueue} {e : Entry} {es : List Entry} (entries : q.entries = e :: es)
    (others : ∀ x ∈ es, x.ticket ≠ e.ticket) : { q.remove e with suspended := false } = q.afterHead e es := by
  simp only [RequestQueue.remove, RequestQueue.afterHead, entries, RequestQueue.filter_ticket_of_cons others]

/-- The head is retired (R162): the entry gone by a queue change without its trigger, QUEUE_CHANGED heard, and
CANCELLED news placed in the room's line when `news` says so. -/
theorem State.retireHead_eq {s : State} {r : RoomId} {e : Entry} (head : (s.room r).queue.head? = some e)
    (news : Bool) :
    s.retireHead r news =
      { s.setRoom r
          { s.room r with
            queue := { (s.room r).queue.remove e with suspended := false }
            line := if news then (s.room r).line.placeNews e.owner ⟨.cancelled, e.ticket⟩ else (s.room r).line } with
        link := s.link.hear (s.room r).mask r .queueChanged } := by
  cases news <;>
    simp only [State.retireHead, head, State.removeEntry, State.placeNews, State.noteQueueChange, State.modRoom_eq,
      State.raise_eq_hear, State.room_setRoom_self, State.setRoom_setRoom, State.setRoom_link, if_true,
      Bool.false_eq_true, if_false, State.room_mk_rooms] <;>
    simp only [State.setRoom, Vector.set_set]

theorem Room.makeResult_of_head {rm : Room} {e : Entry} (head : rm.queue.head? = some e) (o : SongOutcome) :
    rm.makeResult o =
      { rm with result := some ⟨e.ticket, e.song, o, ⟨rm.singerEntry .mic1, rm.singerEntry .mic2⟩⟩ } := by
  simp only [Room.makeResult, head]

/-! ## Song end and abort (R11, R13, R162) -/

/-- The room after a song end whose head entry leaves the queue as `q` (R11). -/
def Room.songEnded (e : Entry) (q : RequestQueue) (rm : Room) : Room :=
  { rm.hushed with
    phase := .result, reasons := ⟨false, false⟩, markTimer := .stopped
    holdTimer := .running (1000 * rm.settings.resultHold), staleTimer := rm.staleTimer.suspend
    result := some ⟨e.ticket, e.song, .complete, ⟨rm.singerEntry .mic1, rm.singerEntry .mic2⟩⟩
    queue := q }

/-- The room after an abort whose head entry leaves the queue as `q`, and whose line is then `ln` (R13). -/
def Room.songAborted (e : Entry) (q : RequestQueue) (ln : RequestLine) (rm : Room) : Room :=
  { rm with
    phase := .attract, reasons := ⟨false, false⟩, markTimer := .stopped, cueTimer := .stopped
    result := some ⟨e.ticket, e.song, .aborted, ⟨rm.singerEntry .mic1, rm.singerEntry .mic2⟩⟩
    lyrics := { rm.lyrics with lines := [], lastLoaded := none }
    melody := ⟨[], none, none, none⟩
    queue := q, line := ln }

/-- The line once the owner of a removed entry has been told of it, when `news` says so. -/
def RequestLine.tellIf (news : Bool) (e : Entry) (ln : RequestLine) : RequestLine :=
  if news then ln.placeNews e.owner ⟨.cancelled, e.ticket⟩ else ln

/-- The queue that a head leaves by a queue change (R151, R155). -/
def RequestQueue.without (e : Entry) (q : RequestQueue) : RequestQueue := { q.remove e with suspended := false }

theorem State.endSong_eq {s : State} {r : RoomId} {e : Entry} (head : (s.room r).queue.head? = some e) :
    s.endSong r =
      { s.setRoom r ((s.room r).songEnded e ((s.room r).queue.without e)) with
        engine := s.engine.voided r
        link := (s.link.hear (s.room r).mask r .queueChanged).hear (s.room r).mask r .result } := by
  have kept : (((s.modRoom r fun rm => (rm.makeResult .complete).toResult).clearRings r).room r).queue.head? = some e := by
    simp [Room.makeResult_of_head head, Room.toResult, Room.hushed, head]
  simp only [State.endSong, State.retireHead_eq kept, State.raise_eq_hear]
  simp only [State.clearRings_eq, State.modRoom_eq, State.room_setRoom_self, State.room_mk_rooms,
    Room.makeResult_of_head head, State.setRoom_setRoom]
  simp only [State.setRoom, Vector.set_set]
  rfl

theorem State.abort_eq {s : State} {r : RoomId} {e : Entry} (head : (s.room r).queue.head? = some e) (news : Bool) :
    s.abort r news =
      ({ s.setRoom r ((s.room r).hushed.songAborted e ((s.room r).queue.without e)
            ((s.room r).line.tellIf news e)) with
        engine := s.engine.voided r
        link := (s.link.hear (s.room r).mask r .queueChanged).hear (s.room r).mask r .result }).offerTrigger r := by
  have kept : ((s.modRoom r fun rm => (rm.makeResult .aborted).toAttract).room r).queue.head? = some e := by
    simp [Room.makeResult_of_head head, Room.toAttract, head]
  simp only [State.abort, State.retireHead_eq kept, State.raise_eq_hear]
  simp only [State.clearRings_eq, State.modRoom_eq, State.room_setRoom_self, State.room_mk_rooms,
    Room.makeResult_of_head head, State.setRoom_setRoom]
  simp only [State.setRoom, Vector.set_set]
  rfl

/-- The cue timer of a CUEING room runs out (R14): the song aborted, with CUE_TIMEOUT heard in RESULT's place. -/
theorem State.cueExpiry_eq {s : State} {r : RoomId} {e : Entry} (head : (s.room r).queue.head? = some e)
    (out : (s.room r).cueTimer = .running 0) (cueing : (s.room r).phase = .cueing) :
    s.cueExpiry r =
      { s.setRoom r ((s.room r).songAborted e ((s.room r).queue.without e) ((s.room r).line.tellIf true e)) with
        link := (s.link.hear (s.room r).mask r .queueChanged).hear (s.room r).mask r .cueTimeout }.offerTrigger r := by
  have kept : (((s.modRoom r fun rm => { rm with cueTimer := .stopped }).modRoom r
      fun rm => (rm.makeResult .aborted).toAttract).room r).queue.head? = some e := by
    simp [State.modRoom_modRoom, Room.makeResult, Room.toAttract, head]
  simp only [State.cueExpiry, out, State.room_modRoom_self, cueing, if_true, State.retireHead_eq kept,
    State.raise_eq_hear]
  simp only [State.modRoom_eq, State.room_setRoom_self, State.room_mk_rooms, State.setRoom_setRoom, Room.makeResult,
    head]
  simp only [State.setRoom, Vector.set_set]
  rfl

/-! ## Closing and resetting a room (R5, R6) -/

/-- The line once the owner of every entry has been told that it is cancelled (R160). -/
def RequestLine.tellAll (es : List Entry) (ln : RequestLine) : RequestLine :=
  es.foldl (fun (ln : RequestLine) (e : Entry) => ln.placeNews e.owner ⟨.cancelled, e.ticket⟩) ln

/-- What the owner of the queue hears when entries leave it at a close (R160). -/
def Link.hearClose (rm : Room) (r : RoomId) (l : Link) : Link :=
  if rm.queue.entries = [] then l else l.hear rm.mask r .queueChanged

theorem State.closeRoom_eq (s : State) (r : RoomId) :
    s.closeRoom r =
      { s.setRoom r
          { (s.room r).closed (s.cutDisplay r) with line := (s.room r).line.tellAll (s.room r).queue.entries } with
        engine := s.engine.voided r
        handed := s.handed.filter fun h => !h.endsWith r
        cuts := s.cuts + 1
        link := s.link.hearClose (s.room r) r } := by
  have closed : (((s.cancelNews r (s.room r).queue.entries).clearRings r).modRoom r
      (Room.closed (s.cutDisplay r))) =
      { s.setRoom r
          { (s.room r).closed (s.cutDisplay r) with line := (s.room r).line.tellAll (s.room r).queue.entries } with
        engine := s.engine.voided r } := by
    simp only [State.cancelNews_eq, State.clearRings_eq, State.modRoom_eq, State.room_setRoom_self,
      State.room_mk_rooms, State.setRoom_setRoom]
    simp only [State.setRoom, Vector.set_set]
    rfl
  simp only [State.closeRoom, closed, Link.hearClose]
  split
  · rfl
  · simp only [State.raise_eq_hear, State.dropHanded, State.room_mk_rooms, State.room_setRoom_self]
    rfl

/-- A reset of a room (R6): a close, the room's defaults, and no answer awaited any longer. -/
theorem State.resetRoom_eq (s : State) (r : RoomId) :
    s.resetRoom r =
      { s.setRoom r
          { (s.room r).closed (s.cutDisplay r) with
            line := (s.room r).line.tellAll (s.room r).queue.entries }.toDefaults with
        engine := s.engine.voided r
        handed := (s.handed.filter fun h => !h.endsWith r).map (HandOver.forget r fun _ => true)
        cuts := s.cuts + 1
        link := s.link.hearClose (s.room r) r } := by
  simp only [State.resetRoom, State.closeRoom_eq, State.forgetAnswers, State.modRoom_eq, State.room_mk_rooms,
    State.room_setRoom_self]
  simp only [State.setRoom, Vector.set_set]

end Sys2Proof.Machine
end

section
/-! SUPPORT. What keeps the link's queues in agreement (R168, R171): the entering of a notice event, the leaving of
the head notice, the uplink's choice, and that no choice leaves the uplink idle with something to send (R169). -/

namespace Sys2Proof.Machine

/-! ## The order of pairs (R171) -/

theorem NoticeKind.index_lt (k : NoticeKind) : k.index < 13 := by cases k <;> decide

theorem NoticeKind.index_injective {j k : NoticeKind} (same : j.index = k.index) : j = k := by
  revert same; cases j <;> cases k <;> decide

/-- The order of pending pairs tells every two pairs apart. -/
theorem NoticePair.rank_injective {p q : NoticePair} (same : p.rank = q.rank) : p = q := by
  obtain ⟨pr, pk⟩ := p
  obtain ⟨qr, qk⟩ := q
  have pk_lt := pk.index_lt
  have qk_lt := qk.index_lt
  cases pr <;> cases qr <;> simp only [NoticePair.rank] at same
  · rw [NoticeKind.index_injective same]
  · omega
  · omega
  next x y =>
    have rooms : x = y := Fin.ext (by omega)
    subst rooms
    rw [NoticeKind.index_injective (j := pk) (k := qk) (by omega)]

/-! ## Entering and leaving (R171) -/

theorem insertPair_perm (p : NoticePair) (l : List NoticePair) : (insertPair p l).Perm (p :: l) := by
  induction l with
  | nil => exact .refl _
  | cons q qs ih =>
    unfold insertPair
    split
    · exact .refl _
    · exact (ih.cons q).trans (.swap p q qs)

/-- A pair that enters keeps the queues in agreement. -/
theorem Link.enter_queuesAgree {l : Link} {p : NoticePair} (valid : p.valid) (agree : l.QueuesAgree) :
    (l.enter p).QueuesAgree := by
  obtain ⟨results, notices, nodup, rising, valids, full⟩ := agree
  rcases Link.enter_cases p l with ⟨-, merged⟩ | ⟨notQueued, notPending, room, queued⟩ | ⟨notQueued, notPending, filled, pends⟩
  · rw [merged]; exact ⟨results, notices, nodup, rising, valids, full⟩
  · have none : l.pendingPairs = [] := by
      by_contra pends
      exact absurd (full pends) (by omega)
    rw [none, List.append_nil] at nodup valids
    rw [queued]
    refine ⟨results, by simpa using room, ?_, rising, ?_, by simp [none]⟩
    · simpa [none] using nodup.concat notQueued
    · simpa [none, or_imp, forall_and] using ⟨valids, valid⟩
  · rw [pends]
    have perm : (l.notices ++ insertPair p l.pendingPairs).Perm (p :: (l.notices ++ l.pendingPairs)) :=
      ((insertPair_perm p l.pendingPairs).append_left l.notices).trans List.perm_middle
    refine ⟨results, notices, perm.nodup_iff.2 (List.nodup_cons.2 ⟨by simp [notQueued, notPending], nodup⟩), ?_, ?_, ?_⟩
    · refine insertPair_rising rising fun q member same => notPending ?_
      rwa [← NoticePair.rank_injective same]
    · intro q member
      rcases List.mem_cons.1 (perm.mem_iff.1 member) with rfl | member
      · exact valid
      · exact valids q member
    · exact fun _ => le_antisymm notices filled

/-- A room's event keeps the queues in agreement, heard or not; READY is none of a room's (R170). -/
theorem Link.hear_queuesAgree {l : Link} (m : NoticeMask) (r : RoomId) {k : NoticeKind} (kind : k ≠ .ready)
    (agree : l.QueuesAgree) : (l.hear m r k).QueuesAgree := by
  unfold Link.hear
  split
  · exact Link.enter_queuesAgree ⟨nofun, fun ready => absurd ready kind⟩ agree
  · exact agree

@[simp] theorem Link.hear_results (l : Link) (m : NoticeMask) (r : RoomId) (k : NoticeKind) :
    (l.hear m r k).results = l.results := by
  unfold Link.hear; split <;> simp

@[simp] theorem Link.hear_resetLine (l : Link) (m : NoticeMask) (r : RoomId) (k : NoticeKind) :
    (l.hear m r k).resetLine = l.resetLine := by
  unfold Link.hear; split <;> simp

/-- The head notice leaves, and the lowest pending pair takes the tail. -/
theorem Link.leaveNotice_queuesAgree {l : Link} {p : NoticePair} {ps : List NoticePair} (head : l.notices = p :: ps)
    (agree : l.QueuesAgree) : (l.leaveNotice ps).QueuesAgree := by
  obtain ⟨results, notices, nodup, rising, valids, full⟩ := agree
  rw [head] at notices nodup valids full
  obtain ⟨-, nodup⟩ := List.nodup_cons.1 nodup
  obtain ⟨-, valids⟩ := List.forall_mem_cons.1 valids
  cases pending : l.pendingPairs with
  | nil =>
    simp only [pending] at nodup rising valids
    simp only [Link.leaveNotice, pending]
    exact ⟨results, Nat.le_of_succ_le notices, by simpa using nodup, rising,
      by simpa using valids, fun pends => absurd rfl pends⟩
  | cons q qs =>
    simp only [pending] at nodup rising valids full
    simp only [Link.leaveNotice, pending]
    have length := full (by simp)
    exact ⟨results, by simpa using notices, by simpa using nodup, (List.pairwise_cons.1 rising).2,
      by simpa using valids, fun _ => by simpa using length⟩

/-! ## The uplink's choice (R169) -/

@[simp] theorem Link.leaveNotice_results (l : Link) (ps : List NoticePair) :
    (l.leaveNotice ps).results = l.results := by
  unfold Link.leaveNotice; split <;> rfl

@[simp] theorem Link.leaveNotice_resetLine (l : Link) (ps : List NoticePair) :
    (l.leaveNotice ps).resetLine = l.resetLine := by
  unfold Link.leaveNotice; split <;> rfl

@[simp] theorem State.startUplink_resetLine (s : State) : s.startUplink.link.resetLine = s.link.resetLine := by
  rw [State.startUplink_eq]
  dsimp only
  split
  · rcases s.chosenLink_cases with ⟨c, -, chosen⟩ | ⟨-, x, xs, -, chosen⟩ | ⟨-, -, p, ps, -, chosen⟩ |
      ⟨-, -, -, chosen⟩ <;> rw [chosen] <;> simp [Link.sendMic]
  · rfl

theorem State.startUplink_queuesAgree {s : State} (agree : s.link.QueuesAgree) : s.startUplink.link.QueuesAgree := by
  rw [State.startUplink_eq]
  dsimp only
  split
  · rcases s.chosenLink_cases with ⟨c, -, chosen⟩ | ⟨-, x, xs, results, chosen⟩ | ⟨-, -, p, ps, notices, chosen⟩ |
      ⟨-, -, -, chosen⟩
    · rw [chosen]; exact agree
    · rw [chosen]
      obtain ⟨bound, others⟩ := agree
      rw [results] at bound
      exact ⟨Nat.le_of_succ_le bound, others⟩
    · rw [chosen]; exact Link.leaveNotice_queuesAgree notices agree
    · rw [chosen]; exact agree
  · exact agree

/-- The channel chosen for the uplink has a cell waiting. -/
theorem Link.isSome_of_nextMic {l : Link} {c : Channel} (next : l.nextMic = some c) :
    (l.micWaiting.get c).isSome = true := by
  simpa using List.find?_some next

/-- After its choice the uplink is not idle with something to send. -/
theorem State.startUplink_busy (s : State) : s.startUplink.link.Busy := by
  rw [State.startUplink_eq]
  dsimp only
  split
  · rcases s.chosenLink_cases with ⟨c, next, chosen⟩ | ⟨-, x, xs, -, chosen⟩ | ⟨-, -, p, ps, -, chosen⟩ |
      ⟨noMic, noResult, noNotice, chosen⟩ <;> rw [chosen] <;> intro may
    · have waits := Link.isSome_of_nextMic next
      simp [Link.mayChoose, Link.sendMic, ← Option.not_isSome, waits] at may
    · simp [Link.mayChoose] at may
    · simp [Link.mayChoose] at may
    · exact ⟨noMic, noResult, noNotice⟩
  next may => exact fun now => absurd now may

end Sys2Proof.Machine
end

section
/-! SUPPORT. What keeps a room in order: the agreement of its state, timers, reasons, lines and queue (R1 to R5, R47,
R147, R155), its records (R79, R93, R122), its values (R16, R22), and what it holds no more of than before. One
relation says all of it of a room before and after, and the operations on a room are shown to keep to it. -/

namespace Sys2Proof.Machine

/-! ## What every step keeps of a room -/

/-- State, reasons, timers, queue, limits and line order agree (R1 to R5, R46, R47, R113, R147, R155). -/
abbrev Room.Agrees (rm : Room) : Prop :=
  rm.ReasonsAgree ∧ rm.TimersAgree ∧ rm.queue.Ordered ∧ rm.HeadAgrees ∧ rm.WithinLimits ∧ rm.DarkIsEmpty ∧
    rm.lyrics.InOrder

/-- Counters, buffers, lines and channels are consistent (R47, R51, R79, R81, R93, R94, R122, R125). -/
abbrev Room.Recorded (rm : Room) : Prop :=
  rm.singers.one.CountsAgree ∧ rm.singers.two.CountsAgree ∧ rm.video.RolesAgree ∧ rm.video.CountAgrees ∧
    rm.video.PicturesWf ∧ rm.lyrics.RowsAgree ∧ rm.lyrics.InOrder ∧ rm.mics.one.InRange ∧ rm.mics.two.InRange

/-- A room holds no more lines, syllables, notes and entries than another. -/
structure Room.NoLarger (b a : Room) : Prop where
  lines : b.lyrics.lineCount ≤ a.lyrics.lineCount
  syllables : b.lyrics.syllableCount ≤ a.lyrics.syllableCount
  notes : b.melody.notes.length ≤ a.melody.notes.length
  entries : b.queue.entries.length ≤ a.queue.entries.length

theorem Room.NoLarger.refl (a : Room) : a.NoLarger a := ⟨le_rfl, le_rfl, le_rfl, le_rfl⟩

theorem Room.NoLarger.trans {a b c : Room} (bc : c.NoLarger b) (ab : b.NoLarger a) : c.NoLarger a :=
  ⟨bc.lines.trans ab.lines, bc.syllables.trans ab.syllables, bc.notes.trans ab.notes, bc.entries.trans ab.entries⟩

/-- Between two states of a handset line no record has left its range and none has changed between ONLINE and
OFFLINE (R137, R144). -/
structure RequestLine.Told (a b : RequestLine) : Prop where
  inRange : ∀ h, (a.records.get h).InRange → (b.records.get h).InRange
  online : ∀ h, (b.records.get h).online = (a.records.get h).online

theorem RequestLine.Told.refl (a : RequestLine) : a.Told a := ⟨fun _ h => h, fun _ => rfl⟩

theorem RequestLine.Told.trans {a b c : RequestLine} (ab : a.Told b) (bc : b.Told c) : a.Told c :=
  ⟨fun h range => bc.inRange h (ab.inRange h range), fun h => (bc.online h).trans (ab.online h)⟩

/-- What an operation on a room keeps: each of the three agreements, the sizes, the handset records but for their
news, and the clear request slots. Where an operation leaves a part alone, that part of it is given. -/
structure Room.Keeps (a b : Room) : Prop where
  agrees : a.Agrees → b.Agrees := by exact id
  recorded : a.Recorded → b.Recorded := by exact id
  values : a.ValuesInRange → b.ValuesInRange := by exact id
  sizes : b.NoLarger a := by exact ⟨le_rfl, le_rfl, le_rfl, le_rfl⟩
  told : a.line.Told b.line := by exact ⟨fun _ => id, fun _ => rfl⟩
  requests : ∀ m, (a.mics.get m).request = none → (b.mics.get m).request = none := by exact fun _ => id

theorem Room.Keeps.refl (a : Room) : a.Keeps a := {}

theorem Room.Keeps.trans {a b c : Room} (ab : a.Keeps b) (bc : b.Keeps c) : a.Keeps c where
  agrees := bc.agrees ∘ ab.agrees
  recorded := bc.recorded ∘ ab.recorded
  values := bc.values ∘ ab.values
  sizes := bc.sizes.trans ab.sizes
  told := ab.told.trans bc.told
  requests m := bc.requests m ∘ ab.requests m

/-! ## Parts that no agreement reads -/

theorem Room.keeps_compositor (rm : Room) (c : Compositor) : rm.Keeps { rm with compositor := c } := {}
theorem Room.keeps_mask (rm : Room) (m : NoticeMask) : rm.Keeps { rm with mask := m } := {}
theorem Room.keeps_result (rm : Room) (x : Option ResultRecord) : rm.Keeps { rm with result := x } := {}

/-! ## News (R144) -/

theorem RequestLine.told_set {ln : RequestLine} {h : HandsetId} {x : HandsetRecord} (slot : Option Slot)
    (inRange : (ln.records.get h).InRange → x.InRange) (online : x.online = (ln.records.get h).online) :
    ln.Told { ln with records := ln.records.set h x, slot := slot } := by
  have cases_on (k : HandsetId) : (ln.records.set h x).get k = if k = h then x else ln.records.get k := by
    split
    next same => rw [same]; exact Vector.get_set_self ..
    next other => exact Vector.get_set_of_ne _ other _
  refine ⟨fun k range => ?_, fun k => ?_⟩
  · rw [cases_on]; split
    next same => exact inRange (same ▸ range)
    next => exact range
  · rw [cases_on]; split
    next same => rw [same]; exact online
    next => rfl

theorem RequestLine.told_placeNews (ln : RequestLine) (h : HandsetId) (n : NewsItem) : ln.Told (ln.placeNews h n) := by
  rcases ln.placeNews_cases h n with ⟨-, unchanged⟩ | ⟨on, room, joined⟩ | ⟨on, full, pushed⟩
  · rw [unchanged]; exact .refl ln
  · rw [joined]
    refine RequestLine.told_set ln.slot (fun ⟨misses, _, _⟩ => ⟨misses, ?_, fun off => ?_⟩) rfl
    · simpa using room
    · exact absurd (on.symm.trans off) (by simp)
  · rw [pushed]
    refine RequestLine.told_set _ (fun ⟨misses, places, _⟩ => ⟨misses, ?_, fun off => ?_⟩) rfl
    · simp only [Config.outboxPlaces, List.length_append, List.length_tail, List.length_singleton] at places ⊢
      omega
    · exact absurd (on.symm.trans off) (by simp)

theorem RequestLine.told_tellIf (ln : RequestLine) (news : Bool) (e : Entry) : ln.Told (ln.tellIf news e) := by
  cases news
  · exact .refl ln
  · exact ln.told_placeNews ..

theorem RequestLine.told_tellAll (ln : RequestLine) (es : List Entry) : ln.Told (ln.tellAll es) := by
  induction es generalizing ln with
  | nil => exact .refl ln
  | cons e es ih => exact (ln.told_placeNews ..).trans (ih _)

theorem Room.keeps_line {rm : Room} {ln : RequestLine} (told : rm.line.Told ln) : rm.Keeps { rm with line := ln } :=
  { told }

/-! ## Queues (R147, R155) -/

/-- No entry of a queue stands in the offer exchange or in a song, and no offer runs. -/
structure RequestQueue.Idle (q : RequestQueue) : Prop where
  head : ∀ st, q.headIs st = true → st = .queued
  timer : q.offerTimer = .stopped

/-- Outside a song and an offer the head agrees with the room state. -/
theorem Room.headAgrees_of_idle {rm : Room} (idle : rm.queue.Idle) (closed : rm.phase.songOpen = false) :
    rm.HeadAgrees := by
  have no (st : EntryState) (other : st ≠ .queued) : rm.queue.headIs st = false :=
    Bool.eq_false_iff.2 fun is => other (idle.head st is)
  have phases : rm.phase ≠ .cueing ∧ rm.phase ≠ .playing ∧ rm.phase ≠ .paused := by
    refine ⟨?_, ?_, ?_⟩ <;> rintro h <;> simp [h, Phase.songOpen] at closed
  simp [Room.HeadAgrees, no, phases, idle.timer]

/-- The states a head agrees with outside a song and an offer. -/
theorem Room.idle_of_headAgrees {rm : Room} (agree : rm.HeadAgrees) (closed : rm.phase.songOpen = false)
    (elsewhere : rm.phase ≠ .attract) : rm.queue.Idle := by
  obtain ⟨cueing, singing, offered, timer⟩ := agree
  have phases : rm.phase ≠ .cueing ∧ rm.phase ≠ .playing ∧ rm.phase ≠ .paused := by
    refine ⟨?_, ?_, ?_⟩ <;> rintro h <;> simp [h, Phase.songOpen] at closed
  refine ⟨fun st is => ?_, by_contra fun runs => elsewhere (offered (timer.1 runs))⟩
  cases st with
  | queued => rfl
  | offered => exact absurd (offered is) elsewhere
  | loading => exact absurd (cueing.2 is) phases.1
  | playing => rcases singing.2 is with h | h <;> simp [h] at phases

theorem RequestQueue.headIs_iff {q : RequestQueue} {st : EntryState} :
    q.headIs st = true ↔ ∃ e, q.head? = some e ∧ e.state = st := by
  simp [RequestQueue.headIs, Option.any_eq_true]

/-- An entry past QUEUED is the head of an ordered queue. -/
theorem RequestQueue.Ordered.head_of_active {q : RequestQueue} (ordered : q.Ordered) {e : Entry}
    (member : e ∈ q.entries) (active : e.state ≠ .queued) : q.head? = some e := by
  obtain ⟨tail, -⟩ := ordered
  unfold RequestQueue.head?
  cases entries : q.entries with
  | nil => simp [entries] at member
  | cons x xs =>
    rw [entries] at member tail
    rcases List.mem_cons.1 member with rfl | later
    · rfl
    · exact absurd (tail e later) active

/-- The entries that stay when one leaves an ordered queue are ordered. -/
theorem RequestQueue.Ordered.without {q : RequestQueue} (ordered : q.Ordered) (e : Entry) : (q.without e).Ordered := by
  obtain ⟨tail, nodup, range, counter⟩ := ordered
  have kept : (q.entries.filter fun x => decide (x.ticket ≠ e.ticket)).Sublist q.entries := List.filter_sublist
  exact ⟨fun x member => tail x (kept.tail.subset member), (kept.map _).nodup nodup,
    fun x member => range x (kept.subset member), counter⟩

/-- The head of what stays when the head leaves is one of the others, and QUEUED. -/
theorem RequestQueue.Ordered.idle_without_head {q : RequestQueue} (ordered : q.Ordered) {e : Entry}
    (head : q.head? = some e) (timer : q.offerTimer ≠ .stopped ↔ q.headIs .offered) : (q.without e).Idle := by
  refine ⟨fun st is => ?_, ?_⟩
  · obtain ⟨x, first, rfl⟩ := RequestQueue.headIs_iff.1 is
    have member : x ∈ q.entries.filter fun x => decide (x.ticket ≠ e.ticket) := List.mem_of_head? first
    by_contra active
    obtain rfl : x = e :=
      Option.some.inj ((ordered.head_of_active (List.mem_of_mem_filter member) active).symm.trans head)
    simp at member
  · simp only [RequestQueue.without, RequestQueue.remove]
    split
    next => rfl
    next other =>
      by_contra runs
      obtain ⟨x, first, offered⟩ := RequestQueue.headIs_iff.1 (timer.1 runs)
      obtain rfl : x = e := Option.some.inj (first.symm.trans head)
      exact other offered

/-- The head put in another state leaves a queue in order. -/
theorem RequestQueue.Ordered.setHead {q : RequestQueue} (ordered : q.Ordered) (st : EntryState) :
    (q.setHead st).Ordered := by
  unfold RequestQueue.setHead
  split
  next => exact ordered
  next e es entries => simpa [RequestQueue.Ordered, entries] using ordered

theorem RequestQueue.headIs_setHead {q : RequestQueue} (st other : EntryState) :
    (q.setHead st).headIs other = true ↔ q.entries ≠ [] ∧ other = st := by
  unfold RequestQueue.setHead
  split
  next entries => simp [RequestQueue.headIs, RequestQueue.head?, entries]
  next e es entries => simp [RequestQueue.headIs, RequestQueue.head?, entries, eq_comm]

end Sys2Proof.Machine
end

section
/-! SUPPORT. What the song timeline and the settings keep: the clock at or before the end guard, the credits, the
detent count and the clamped numbers in their ranges (R16, R22, R25, R28, R29, R36). -/

namespace Sys2Proof.Machine

/-! ## The end guard (R11, R28) -/

/-- Held at the end guard, a position at or past the clock stays so. -/
theorem Timeline.cap_bounds {t : Timeline} (length : t.songLength.isSome = true) (clock : t.clock ≤ t.limit) {p : Nat}
    (ahead : t.clock ≤ p) : t.clock ≤ t.cap p ∧ t.cap p ≤ t.limit := by
  obtain ⟨l, length⟩ := Option.isSome_iff_exists.1 length
  simp only [Timeline.limit, Timeline.cap, Timeline.guard, length, Option.map_some, Option.getD_some] at clock ⊢
  omega

theorem Timeline.cap_le (t : Timeline) (p : Nat) : t.cap p ≤ p := by
  unfold Timeline.cap; split <;> omega

/-- The end guard lies within the song times (R11, R22). -/
theorem Timeline.limit_le {t : Timeline} (lengths : t.songLength.all (fun l => 1 ≤ l && l ≤ Config.songLengthMax) = true) :
    t.limit ≤ Config.songTimeMax := by
  cases length : t.songLength with
  | none => simp [Timeline.limit, Timeline.guard, length]
  | some l =>
    obtain ⟨-, most⟩ : 1 ≤ l ∧ l ≤ Config.songLengthMax := by simpa [length] using lengths
    have limit : t.limit = l + Config.guardMargin := by simp [Timeline.limit, Timeline.guard, length]
    exact limit.trans_le (Nat.add_le_add_right most Config.guardMargin)

/-! ## Ticks, credits and marks (R24, R25, R29) -/

/-- With a song length the advance of a tick keeps the timeline in range. -/
theorem Timeline.advance_inRange {t : Timeline} (range : t.InRange) (length : t.songLength.isSome = true) :
    t.advance.InRange := by
  obtain ⟨low, high, acc, catchUp, hold, one, lengths, keyLow, keyHigh, detLow, detHigh, clock, stamp⟩ := range
  have rest : (t.accumulator + t.tempo) % 100 ≤ 99 := by omega
  have moved (n : Nat) := Timeline.cap_bounds length clock (Nat.le_add_right t.clock n)
  unfold Timeline.advance
  dsimp only
  split
  next credit =>
    exact ⟨low, high, rest, (Nat.sub_le ..).trans catchUp, hold, .inr (one.resolve_left (by omega)), lengths, keyLow, keyHigh,
      detLow, detHigh, (moved (t.due + 1)).2, stamp.trans (moved (t.due + 1)).1⟩
  next credit =>
    exact ⟨low, high, rest, catchUp, (Nat.sub_le ..).trans hold, .inl (by dsimp only; omega), lengths, keyLow, keyHigh,
      detLow, detHigh, (moved _).2, stamp.trans (moved _).1⟩

/-- With a song length a time mark keeps the timeline in range. -/
theorem Timeline.mark_inRange {t : Timeline} (range : t.InRange) (length : t.songLength.isSome = true) (p : Nat) :
    (t.mark p).InRange := by
  obtain ⟨low, high, acc, catchUp, hold, one, lengths, keyLow, keyHigh, detLow, detHigh, clock, stamp⟩ := range
  have most := clock.trans (Timeline.limit_le lengths)
  have below := t.cap_le p
  unfold Timeline.mark Timeline.lead
  dsimp only
  split <;> [skip; split <;> [skip; split]]
  next jump =>
    have moved := Timeline.cap_bounds length clock (p := p) (by omega)
    exact ⟨low, high, acc, Nat.zero_le _, Nat.zero_le _, .inl rfl, lengths, keyLow, keyHigh, detLow, detHigh, moved.2,
      stamp.trans moved.1⟩
  next => exact ⟨low, high, acc, by dsimp only; omega, Nat.zero_le _, .inr rfl, lengths, keyLow, keyHigh, detLow, detHigh, clock, stamp⟩
  next => exact ⟨low, high, acc, Nat.zero_le _, Nat.zero_le _, .inl rfl, lengths, keyLow, keyHigh, detLow, detHigh, clock, stamp⟩
  next => exact ⟨low, high, acc, Nat.zero_le _, by dsimp only; omega, .inl rfl, lengths, keyLow, keyHigh, detLow, detHigh, clock, stamp⟩

@[simp] theorem Timeline.mark_songLength (t : Timeline) (p : Nat) : (t.mark p).songLength = t.songLength := by
  unfold Timeline.mark; dsimp only; split_ifs <;> rfl

@[simp] theorem Timeline.advance_songLength (t : Timeline) : t.advance.songLength = t.songLength := by
  unfold Timeline.advance; dsimp only; split_ifs <;> rfl

/-! ## The key knob (R34 to R37) -/

theorem detentMade_eq_none {n : Int} : detentMade n = none ↔ -3 ≤ n ∧ n ≤ 3 := by
  unfold detentMade; split_ifs <;> simp <;> omega

/-- The count that makes a detent is reset, so it never reaches four steps either way. -/
theorem Timeline.sampleKnob_inRange {t : Timeline} (range : t.InRange) (a b : Bool) : (t.sampleKnob a b).InRange := by
  obtain ⟨low, high, acc, catchUp, hold, one, lengths, keyLow, keyHigh, -, -, clock, stamp⟩ := range
  have reset : -3 ≤ (t.sampleKnob a b).detents ∧ (t.sampleKnob a b).detents ≤ 3 := by
    cases made : detentMade (t.stepped a b) with
    | none => simpa [Timeline.sampleKnob, made] using detentMade_eq_none.1 made
    | some _ => simp [Timeline.sampleKnob, made]
  exact ⟨low, high, acc, catchUp, hold, one, lengths, keyLow, keyHigh, reset.1, reset.2, clock, stamp⟩

/-! ## Songs (R22, R26) -/

theorem Timeline.clear_inRange (t : Timeline) {tempo : Nat} (low : 80 ≤ tempo) (high : tempo ≤ 120) :
    (t.clear tempo).InRange :=
  ⟨low, high, by simp [Timeline.clear, Timeline.start], by simp [Timeline.clear, Timeline.start],
    by simp [Timeline.clear, Timeline.start], by simp [Timeline.clear, Timeline.start], rfl,
    by simp [Timeline.clear, Timeline.start], by simp [Timeline.clear, Timeline.start],
    by simp [Timeline.clear, Timeline.start], by simp [Timeline.clear, Timeline.start], Nat.zero_le _, Nat.le_refl _⟩

theorem Timeline.openSong_inRange {t : Timeline} (range : t.InRange) {tempo length : Nat} {preset : Option Int}
    (low : 80 ≤ tempo) (high : tempo ≤ 120) (one : 1 ≤ length) (most : length ≤ Config.songLengthMax)
    (presets : preset.all (fun p => -6 ≤ p && p ≤ 6) = true) : (t.openSong tempo length preset).InRange := by
  obtain ⟨-, -, -, -, -, -, -, -, -, detLow, detHigh, -, -⟩ := range
  have key : -6 ≤ preset.getD 0 ∧ preset.getD 0 ≤ 6 := by
    cases preset with
    | none => decide
    | some p => simpa using presets
  exact ⟨low, high, Nat.zero_le _, Nat.zero_le _, Nat.zero_le _, .inl rfl, by simp [Timeline.openSong, one, most],
    key.1, key.2, detLow, detHigh, Nat.zero_le _, Nat.le_refl _⟩

/-! ## Settings (R16) -/

theorem clampNat_clampNat {lo hi : Nat} (order : lo ≤ hi) (n : Nat) :
    clampNat lo hi (clampNat lo hi n) = clampNat lo hi n :=
  clampNat_of_mem (clampNat_bounds order n).1 (clampNat_bounds order n).2

/-- A clamped record, with whatever mic parts, lies within its ranges. -/
theorem Settings.clamped_inRange (t : Settings) (parts : PerMic MicPart) :
    { t.clamped with micParts := parts }.InRange := by
  simp [Settings.InRange, Settings.clamped, clampNat_clampNat]

theorem Settings.InRange.defaultTempo {t : Settings} (range : t.InRange) : 80 ≤ t.defaultTempo ∧ t.defaultTempo ≤ 120 := by
  have clamped : clampNat 80 120 t.defaultTempo = t.defaultTempo := congrArg Settings.defaultTempo range
  rw [← clamped]
  exact clampNat_bounds (by decide) _

end Sys2Proof.Machine
end

section
/-! SUPPORT. What the lyric table unit keeps (R47, R51, R54): an evaluation drops lines and changes their display
states alone, and a row never has a second occupant; a line that is loaded or replaced keeps the list in order. -/

namespace Sys2Proof.Machine

/-! ## Lines but for their display states -/

/-- A line as it was loaded: all of it but its display state. -/
def Line.unstated (l : Line) : Line := { l with state := .loaded }

/-- The lines of a list are among those of another, in their order, but for their display states. -/
def LinesAmong (new old : List Line) : Prop := (new.map Line.unstated).Sublist (old.map Line.unstated)

theorem LinesAmong.refl (ls : List Line) : LinesAmong ls ls := List.Sublist.refl _

theorem LinesAmong.trans {a b c : List Line} (bc : LinesAmong c b) (ab : LinesAmong b a) : LinesAmong c a :=
  List.Sublist.trans bc ab

theorem LinesAmong.of_sublist {new old : List Line} (sub : new.Sublist old) : LinesAmong new old := sub.map _

section
variable {new old : List Line}

theorem LinesAmong.length_le (among : LinesAmong new old) : new.length ≤ old.length := by
  simpa using List.Sublist.length_le among

/-- A sum over lines that reads no display state does not grow. -/
theorem LinesAmong.syllables_le (among : LinesAmong new old) :
    (new.map (·.syllables.length)).sum ≤ (old.map (·.syllables.length)).sum := by
  have sub := (List.Sublist.map (fun l : Line => l.syllables.length) among).sum_le_sum (by simp)
  simpa [Function.comp_def, Line.unstated] using sub

theorem LinesAmong.ids_nodup (among : LinesAmong new old) (nodup : (old.map (·.id)).Nodup) : (new.map (·.id)).Nodup := by
  have sub := List.Sublist.map (fun l : Line => l.id) among
  simp only [List.map_map] at sub
  exact sub.nodup nodup

theorem LinesAmong.starts_rising (among : LinesAmong new old) (rising : old.Pairwise fun k l => k.start ≤ l.start) :
    new.Pairwise fun k l => k.start ≤ l.start := by
  have mapped : (old.map Line.unstated).Pairwise fun k l => k.start ≤ l.start := List.pairwise_map.2 rising
  exact (List.pairwise_map (f := Line.unstated) (R := fun k l => k.start ≤ l.start)).1 (mapped.sublist among)

end

/-- What the lyric table unit keeps while it drops lines and moves them on: the order of the list, the one occupant
of each row, and its size. -/
structure Lyrics.Reduces (a b : Lyrics) : Prop where
  among : LinesAmong b.lines a.lines
  rows : a.RowsAgree → b.RowsAgree

theorem Lyrics.Reduces.inOrder {a b : Lyrics} (less : a.Reduces b) (order : a.InOrder) : b.InOrder :=
  ⟨less.among.ids_nodup order.1, less.among.starts_rising order.2⟩

/-! ## The steps of an evaluation (R53, R54) -/

theorem Line.unstated_ite {c : Prop} [Decidable c] (l : Line) (st : LineState) :
    (if c then { l with state := st } else l).unstated = l.unstated := by
  split <;> rfl

theorem Line.onRow_ite {c : Prop} [Decidable c] {l : Line} {st : LineState} (on : l.onRow = true) (other : st ≠ .loaded) :
    (if c then { l with state := st } else l).onRow = true := by
  split
  · simpa [Line.onRow] using other
  · exact on

/-- Moved on, an occupant is the same line on the same row, and stays an occupant. -/
theorem Line.progress_some {t linger : Nat} {l l' : Line} (moved : l.progress t linger = some l')
    (on : l.onRow = true) : l'.unstated = l.unstated ∧ l'.onRow = true := by
  simp only [Line.progress, Option.ite_none_left_eq_some, Option.some.injEq] at moved
  obtain ⟨-, rfl⟩ := moved
  exact ⟨(Line.unstated_ite ..).trans (Line.unstated_ite ..), Line.onRow_ite (Line.onRow_ite on (by decide)) (by decide)⟩

/-- Of a list whose items are dropped or replaced by ones alike, what remains is among it. -/
theorem linesAmong_filterMap {f : Line → Option Line} (alike : ∀ l l', f l = some l' → l'.unstated = l.unstated)
    (ls : List Line) : LinesAmong (ls.filterMap f) ls := by
  induction ls with
  | nil => exact .refl _
  | cons l ls ih =>
    rw [List.filterMap_cons]
    cases made : f l with
    | none => exact ih.cons _
    | some l' => simpa [LinesAmong, alike l l' made] using ih

theorem countP_filterMap_le {f : Line → Option Line} {p : Line → Bool}
    (alike : ∀ l l', f l = some l' → p l' = true → p l = true) (ls : List Line) :
    (ls.filterMap f).countP p ≤ ls.countP p := by
  induction ls with
  | nil => simp
  | cons l ls ih =>
    rw [List.filterMap_cons]
    cases made : f l with
    | none => simp only [List.countP_cons]; omega
    | some l' =>
      have one := alike l l' made
      simp only [List.countP_cons]
      split_ifs <;> simp_all; omega

/-- A line that occupies a row (R51). -/
def Line.occupies (row : Fin 2) (l : Line) : Bool := l.row = row && l.onRow

theorem Lyrics.rowsAgree_iff {y : Lyrics} : y.RowsAgree ↔ ∀ row, y.lines.countP (Line.occupies row) ≤ 1 := by
  simp only [Lyrics.RowsAgree, List.countP_eq_length_filter]; rfl

section
variable (row : Fin 2) (t preroll linger : Nat) (ls : List Line)

/-- What the moving of a row's occupant leaves of a line. -/
def Line.moved (row : Fin 2) (t linger : Nat) (l : Line) : Option Line :=
  if l.row = row ∧ l.onRow then l.progress t linger else some l

theorem Line.moved_some {l l' : Line} (made : l.moved row t linger = some l') :
    l'.unstated = l.unstated ∧ (l'.onRow = true → l.onRow = true) := by
  unfold Line.moved at made
  split at made
  next occupant => exact ⟨(Line.progress_some made occupant.2).1, fun _ => occupant.2⟩
  next => rw [← Option.some.inj made]; exact ⟨rfl, fun on => on⟩

theorem moveOccupant_eq : moveOccupant row t linger ls = ls.filterMap (Line.moved row t linger) := rfl

theorem Line.occupies_of_moved {l l' : Line} (row' : Fin 2) (made : l.moved row t linger = some l')
    (occupies : l'.occupies row' = true) : l.occupies row' = true := by
  obtain ⟨same, on⟩ := Line.moved_some row t linger made
  have rows : l'.unstated.row = l.unstated.row := congrArg Line.row same
  simp only [Line.occupies, Bool.and_eq_true, decide_eq_true_eq] at occupies ⊢
  exact ⟨rows.symm.trans occupies.1, on occupies.2⟩

theorem showCandidate_unstated : (showCandidate row t preroll ls).map Line.unstated = ls.map Line.unstated := by
  induction ls with
  | nil => rfl
  | cons l ls ih => unfold showCandidate; split_ifs <;> simp [ih, Line.unstated]

/-- Of another row the candidate changes no occupant, and its own row gains one at most. -/
theorem countP_showCandidate_le (row' : Fin 2) :
    (showCandidate row t preroll ls).countP (Line.occupies row') ≤
      ls.countP (Line.occupies row') + if row' = row then 1 else 0 := by
  induction ls with
  | nil => simp [showCandidate]
  | cons l ls ih =>
    unfold showCandidate
    split
    next candidate =>
      have gained (st : LineState) : ({ l with state := st }).occupies row' = true → row' = row := by
        simp only [Line.occupies, candidate.1, Bool.and_eq_true, decide_eq_true_eq]
        exact fun on => on.1.symm
      split
      next => simp only [List.countP_cons]; split_ifs <;> simp_all <;> omega
      next => omega
    next => simp only [List.countP_cons]; omega

end

theorem rowStep_reduces (row : Fin 2) (t preroll linger : Nat) (ls : List Line) :
    LinesAmong (rowStep row t preroll linger ls) ls ∧
      ((∀ r, ls.countP (Line.occupies r) ≤ 1) → ∀ r, (rowStep row t preroll linger ls).countP (Line.occupies r) ≤ 1) := by
  have among : LinesAmong (moveOccupant row t linger ls) ls := by
    rw [moveOccupant_eq]
    exact linesAmong_filterMap (fun l l' made => (Line.moved_some row t linger made).1) ls
  have fewer (r : Fin 2) : (moveOccupant row t linger ls).countP (Line.occupies r) ≤ ls.countP (Line.occupies r) := by
    rw [moveOccupant_eq]
    exact countP_filterMap_le (fun l l' => Line.occupies_of_moved row t linger r) ls
  unfold rowStep
  dsimp only
  split
  next taken => exact ⟨among, fun one r => (fewer r).trans (one r)⟩
  next free =>
    refine ⟨LinesAmong.trans (b := moveOccupant row t linger ls) ?_ among, fun one r => ?_⟩
    · rw [LinesAmong, showCandidate_unstated]
    · refine (countP_showCandidate_le row t preroll _ r).trans ?_
      split
      next same =>
        subst same
        have none : (moveOccupant r t linger ls).countP (Line.occupies r) = 0 := by
          rw [List.countP_eq_zero]
          simpa [occupant, Line.occupies, List.find?_isSome] using free
        omega
      next => exact (fewer r).trans (one r)

/-- An evaluation drops lines and moves them on (R52). -/
theorem Lyrics.evaluate_reduces (t preroll linger : Nat) (y : Lyrics) : y.Reduces (y.evaluate t preroll linger) := by
  have skipped : y.Reduces (y.skipStep t) := by
    refine ⟨.of_sublist List.filter_sublist, ?_⟩
    simp only [Lyrics.rowsAgree_iff]
    exact fun one row => (List.filter_sublist.countP_le).trans (one row)
  obtain ⟨among0, rows0⟩ := rowStep_reduces 0 t preroll linger (y.skipStep t).lines
  obtain ⟨among1, rows1⟩ := rowStep_reduces 1 t preroll linger (rowStep 0 t preroll linger (y.skipStep t).lines)
  refine ⟨(among1.trans among0).trans skipped.among, fun agree => ?_⟩
  exact Lyrics.rowsAgree_iff.2 (rows1 (rows0 (Lyrics.rowsAgree_iff.1 (skipped.rows agree))))

theorem Lyrics.clear_reduces (y : Lyrics) : y.Reduces { y with lines := [], lastLoaded := none } :=
  ⟨List.nil_sublist _, by simp [Lyrics.RowsAgree]⟩

/-! ## Loading a line (R47 to R49) -/

theorem notBefore_iff {start : Nat} {bound : Option Nat} : notBefore start bound = true ↔ ∀ b ∈ bound, b ≤ start := by
  simp [notBefore, Option.all_eq_true]

/-- The line of an id that the list holds stands between lines of which those before it have other ids. -/
theorem find?_id_split {ls : List Line} {id : Nat} {old : Line} (found : ls.find? (fun x => x.id = id) = some old) :
    ∃ before after, ls = before ++ old :: after ∧ old.id = id ∧ ∀ x ∈ before, x.id ≠ id := by
  obtain ⟨named, before, after, rfl, others⟩ := List.find?_eq_some_iff_append.1 found
  exact ⟨before, after, rfl, by simpa using named, by simpa using others⟩

/-- The order condition of a replacement reads the neighbours of the line it replaces (R49). -/
theorem replacementInOrder_split {l old : Line} {before after : List Line} (others : ∀ x ∈ before, x.id ≠ l.id)
    (named : old.id = l.id) (bound : Option Nat) :
    replacementInOrder l bound (before ++ old :: after) =
      (notBefore l.start ((before.getLast?.map (·.start)).or bound) &&
        (after.head?.map (·.start)).all (l.start ≤ ·)) := by
  induction before generalizing bound with
  | nil => simp [replacementInOrder, named]
  | cons x xs ih =>
    obtain ⟨other, others⟩ := List.forall_mem_cons.1 others
    rw [List.cons_append, replacementInOrder, if_neg other, ih others]
    cases xs with
    | nil => simp
    | cons y ys =>
      obtain ⟨z, last⟩ := List.getLast?_isSome.2 (List.cons_ne_nil y ys) |> Option.isSome_iff_exists.1
      rw [List.getLast?_cons_cons, last]
      rfl

/-- Replaced in a list whose ids differ, one line changes. -/
theorem map_replace_split {l new old : Line} {before after : List Line} (others : ∀ x ∈ before ++ after, x.id ≠ l.id)
    (named : old.id = l.id) :
    ((before ++ old :: after).map fun x => if x.id = l.id then new else x) = before ++ new :: after := by
  have unchanged (xs : List Line) (h : ∀ x ∈ xs, x.id ≠ l.id) : (xs.map fun x => if x.id = l.id then new else x) = xs :=
    (List.map_congr_left fun x member => if_neg (h x member)).trans (List.map_id xs)
  rw [List.map_append, List.map_cons, if_pos named, unchanged before fun x h => others x (by simp [h]),
    unchanged after fun x h => others x (by simp [h])]

/-- In a list whose ids differ, the lines but for one have ids other than its own. -/
theorem ids_ne_of_nodup {old : Line} {before after : List Line} (nodup : ((before ++ old :: after).map (·.id)).Nodup) :
    ∀ x ∈ before ++ after, x.id ≠ old.id := by
  have perm : ((before ++ old :: after).map (·.id)).Perm (old.id :: (before ++ after).map (·.id)) := by
    simp
  have apart := (List.nodup_cons.1 (perm.nodup_iff.1 nodup)).1
  exact fun x member same => apart (same ▸ List.mem_map_of_mem member)

@[simp] theorem Line.clamped_id (l : Line) : l.clamped.id = l.id := rfl
@[simp] theorem Line.clamped_start (l : Line) : l.clamped.start = l.start := rfl
@[simp] theorem Line.clamped_state (l : Line) : l.clamped.state = l.state := rfl
@[simp] theorem Line.clamped_syllables_length (l : Line) : l.clamped.syllables.length = l.syllables.length := by
  simp [Line.clamped]

theorem Line.occupies_of_loaded {l : Line} (loaded : l.state = .loaded) (row : Fin 2) : l.occupies row = false := by
  simp [Line.occupies, Line.onRow, loaded]

section
variable {y : Lyrics} {l : Line}

/-- A new line that starts at or after the last one joins the list in order (R48). -/
theorem Lyrics.addLine_inOrder (order : y.InOrder) (absent : y.lines.find? (fun x => x.id = l.id) = none)
    (late : y.newInOrder l = true) : (y.addLine l.clamped).InOrder := by
  obtain ⟨nodup, rising⟩ := order
  have last : ∀ x ∈ y.lines.getLast?, x.start ≤ l.start := by
    simpa [notBefore_iff] using (Bool.and_eq_true_iff.1 late).2
  refine ⟨?_, List.pairwise_append.2 ⟨rising, by simp, ?_⟩⟩
  · simp only [Lyrics.addLine, List.map_append, List.map_cons, List.map_nil]
    exact List.concat_eq_append ▸ nodup.concat (by simpa using absent)
  · intro k member _ new
    rw [List.mem_singleton.1 new]
    obtain ⟨before, z, lines⟩ : ∃ before z, y.lines = before ++ [z] :=
      (List.eq_nil_or_concat' y.lines).resolve_left (List.ne_nil_of_mem member)
    rw [lines] at rising member
    have latest : z.start ≤ l.start := last z (by simp [lines])
    rcases List.mem_append.1 member with earlier | same
    · exact ((List.pairwise_append.1 rising).2.2 k earlier z (by simp)).trans latest
    · rw [List.mem_singleton.1 same]; exact latest

theorem Lyrics.addLine_rowsAgree (rows : y.RowsAgree) (loaded : l.state = .loaded) : (y.addLine l.clamped).RowsAgree := by
  rw [Lyrics.rowsAgree_iff] at rows ⊢
  intro row
  simp [Lyrics.addLine, Line.occupies_of_loaded (l := l.clamped) loaded, rows row]

/-- A LOADED line is replaced in a list in order by one that fits between its neighbours (R49). -/
theorem Lyrics.replaceLine_lines {old : Line} (order : y.InOrder)
    (found : y.lines.find? (fun x => x.id = l.id) = some old) :
    ∃ before after, y.lines = before ++ old :: after ∧ (∀ x ∈ before ++ after, x.id ≠ l.id) ∧ old.id = l.id ∧
      (y.replaceLine l.clamped).lines = before ++ l.clamped :: after := by
  obtain ⟨before, after, lines, named, -⟩ := find?_id_split found
  have others : ∀ x ∈ before ++ after, x.id ≠ l.id := named ▸ ids_ne_of_nodup (lines ▸ order.1)
  refine ⟨before, after, lines, others, named, ?_⟩
  simp only [Lyrics.replaceLine, lines, Line.clamped_id]
  exact map_replace_split others named

theorem Lyrics.replaceLine_inOrder {old : Line} (order : y.InOrder)
    (found : y.lines.find? (fun x => x.id = l.id) = some old) (fits : replacementInOrder l none y.lines = true) :
    (y.replaceLine l.clamped).InOrder := by
  obtain ⟨before, after, lines, others, named, replaced⟩ := Lyrics.replaceLine_lines order found
  obtain ⟨nodup, rising⟩ := order
  rw [lines] at nodup rising fits
  rw [replacementInOrder_split (fun x h => others x (by simp [h])) named, Bool.and_eq_true, Option.or_none, notBefore_iff]
    at fits
  obtain ⟨low, high⟩ := fits
  rw [Lyrics.InOrder, replaced]
  refine ⟨by simpa [named] using nodup, ?_⟩
  obtain ⟨first, rest, across⟩ := List.pairwise_append.1 rising
  obtain ⟨-, later⟩ := List.pairwise_cons.1 rest
  refine List.pairwise_append.2 ⟨first, List.pairwise_cons.2 ⟨fun x member => ?_, later⟩, fun x member z new => ?_⟩
  · obtain ⟨a, as, rfl⟩ := List.exists_cons_of_ne_nil (List.ne_nil_of_mem member)
    have next : l.start ≤ a.start := by simpa using high
    rcases List.mem_cons.1 member with rfl | behind
    · exact next
    · exact next.trans ((List.pairwise_cons.1 later).1 x behind)
  · rcases List.mem_cons.1 new with rfl | behind
    · obtain ⟨front, a, rfl⟩ : ∃ front a, before = front ++ [a] :=
        (List.eq_nil_or_concat' before).resolve_left (List.ne_nil_of_mem member)
      have previous : a.start ≤ l.start := low a.start (by simp)
      rcases List.mem_append.1 member with earlier | same
      · exact ((List.pairwise_append.1 first).2.2 x earlier a (by simp)).trans previous
      · rw [List.mem_singleton.1 same]; exact previous
    · exact across x member z (by simp [behind])

theorem Lyrics.replaceLine_rowsAgree {old : Line} (order : y.InOrder) (rows : y.RowsAgree)
    (found : y.lines.find? (fun x => x.id = l.id) = some old) (loaded : l.state = .loaded) :
    (y.replaceLine l.clamped).RowsAgree := by
  obtain ⟨before, after, lines, -, -, replaced⟩ := Lyrics.replaceLine_lines order found
  rw [Lyrics.rowsAgree_iff] at rows ⊢
  intro row
  have one := rows row
  rw [lines, List.countP_append, List.countP_cons] at one
  rw [replaced, List.countP_append, List.countP_cons, Line.occupies_of_loaded (l := l.clamped) loaded row]
  simp only [Bool.false_eq_true, if_false]
  omega

theorem Lyrics.replaceLine_sizes {old : Line} (order : y.InOrder)
    (found : y.lines.find? (fun x => x.id = l.id) = some old) :
    (y.replaceLine l.clamped).lineCount = y.lineCount ∧
      (y.replaceLine l.clamped).syllableCount + old.syllables.length = y.syllableCount + l.syllables.length := by
  obtain ⟨before, after, lines, -, -, replaced⟩ := Lyrics.replaceLine_lines order found
  simp only [Lyrics.lineCount, Lyrics.syllableCount, replaced, lines]
  refine ⟨by simp, ?_⟩
  simp
  omega

end

end Sys2Proof.Machine
end

section
/-! SUPPORT. What the frame buffer manager keeps (R79, R81 to R87): the roles of its buffers, the count of the flags of
the record of the filling frame, and the form of its pictures, through the taking of a segment, the completion of a
frame and the rotation. -/

namespace Sys2Proof.Machine

/-! ## Roles (R79) -/

section
variable {v : FrameManager}

theorem FrameManager.get_of_withRole {x : Role} {b : Fin 3} (found : v.withRole x = some b) : v.roles.get b = x := by
  simpa using List.find?_some found

theorem FrameManager.inRole_eq_zero_of_withRole {x : Role} (none : v.withRole x = none) : v.inRole x = 0 := by
  have absent : ∀ b : Fin 3, v.roles.get b ≠ x := by
    intro b
    have := List.find?_eq_none.1 none b (by fin_cases b <;> simp)
    simpa using this
  refine List.count_eq_zero.2 fun member => ?_
  obtain ⟨i, bound, eq⟩ := Vector.mem_iff_getElem.1 (Vector.mem_toList_iff.1 member)
  exact absent ⟨i, bound⟩ eq

theorem FrameManager.inRole_pos {x : Role} {b : Fin 3} (role : v.roles.get b = x) : 1 ≤ v.inRole x := by
  refine List.count_pos_iff.2 (Vector.mem_toList_iff.2 ?_)
  rw [← role]
  exact Vector.getElem_mem b.isLt

/-- A changed role is counted where it is and no longer where it was. -/
theorem FrameManager.inRole_setRole (b : Fin 3) (x y : Role) :
    (v.setRole b x).inRole y = (v.inRole y - if v.roles.get b = y then 1 else 0) + if x = y then 1 else 0 := by
  have length : b.val < v.roles.toList.length := by simp
  simp only [FrameManager.inRole, FrameManager.setRole, Vector.toList_set, List.count_set length, beq_iff_eq]
  rfl

theorem FrameManager.get_setRole_of_ne {b c : Fin 3} (other : c ≠ b) (x : Role) :
    (v.setRole b x).roles.get c = v.roles.get c := Vector.get_set_of_ne _ other _

end

@[simp] theorem FrameManager.setRole_record (v : FrameManager) (b : Fin 3) (x : Role) :
    (v.setRole b x).record = v.record := rfl

/-! ## The flags of a record (R81) -/

theorem countP_or_eq {α : Type} [DecidableEq α] {p : α → Bool} {x : α} {l : List α} (nodup : l.Nodup) (member : x ∈ l)
    (unset : p x = false) : l.countP (fun a => p a || decide (a = x)) = l.countP p + 1 := by
  induction l with
  | nil => simp at member
  | cons a l ih =>
    obtain ⟨apart, nodup⟩ := List.nodup_cons.1 nodup
    simp only [List.countP_cons]
    rcases List.mem_cons.1 member with rfl | later
    · have same : l.countP (fun a => p a || decide (a = x)) = l.countP p :=
        List.countP_congr fun a h => by simp [show a ≠ x from fun e => apart (e ▸ h)]
      simp [same, unset]
    · have other : a ≠ x := fun e => apart (e ▸ later)
      simp only [ih nodup later, other, decide_false, Bool.or_false]
      omega

/-- A bit that is set anew adds one to the bits of a word that are set. -/
theorem countP_getLsbD_or_twoPow {n i : Nat} {x : BitVec n} (bound : i < n) (unset : x.getLsbD i = false) :
    (List.range n).countP (fun k => (x ||| BitVec.twoPow n i).getLsbD k) = (List.range n).countP x.getLsbD + 1 := by
  have bits : ∀ k ∈ List.range n, (x ||| BitVec.twoPow n i).getLsbD k = true ↔ (x.getLsbD k || decide (k = i)) = true := by
    intro k _
    rw [BitVec.getLsbD_or, BitVec.getLsbD_twoPow, decide_eq_true bound, Bool.true_and]
    simp only [eq_comm (a := i)]
  rw [List.countP_congr bits, countP_or_eq List.nodup_range (List.mem_range.2 bound) unset]

/-- A segment's flag is set and counted once (R83). -/
theorem FillRecord.mark_count {f : FillRecord} {index : Nat} (bound : index < Config.segments)
    (agree : f.count = ((List.range Config.segments).filter fun i => f.bitmap.getLsbD i).length) :
    (f.mark index).count = ((List.range Config.segments).filter fun i => (f.mark index).bitmap.getLsbD i).length := by
  rw [← List.countP_eq_length_filter] at agree ⊢
  unfold FillRecord.mark
  split
  next => exact agree
  next unset => exact (congrArg (· + 1) agree).trans (countP_getLsbD_or_twoPow bound (Bool.eq_false_iff.2 unset)).symm

/-! ## What the manager keeps (R79, R81) -/

/-- The manager in order but for a frame that may be due to complete. -/
structure FrameManager.Gathered (v : FrameManager) : Prop where
  front : v.inRole .front = 1
  ready : v.inRole .ready ≤ 1
  filling : v.inRole .filling = if v.record.isSome then 1 else 0
  counts : v.CountAgrees
  pictures : v.PicturesWf

/-- The manager in order. -/
abbrev FrameManager.InOrder (v : FrameManager) : Prop := v.RolesAgree ∧ v.CountAgrees ∧ v.PicturesWf

theorem FrameManager.InOrder.gathered {v : FrameManager} (order : v.InOrder) : v.Gathered :=
  ⟨order.1.1, order.1.2.1, order.1.2.2.1, order.2.1, order.2.2⟩

theorem FrameManager.Gathered.inOrder {v : FrameManager} (gathered : v.Gathered) (due : v.completionDue = false) :
    v.InOrder := by
  refine ⟨⟨gathered.front, gathered.ready, gathered.filling, fun f gathering => ?_⟩, gathered.counts, gathered.pictures⟩
  rw [Option.mem_def] at gathering
  simpa [FrameManager.completionDue, gathering] using due

section
variable {v : FrameManager} {g : Segment}

theorem FrameManager.Gathered.writeSegment (gathered : v.Gathered) (bound : g.index < Config.segments) :
    (v.writeSegment g).Gathered := by
  unfold FrameManager.writeSegment
  split
  next b f role record =>
    obtain ⟨front, ready, filling, counts, pictures⟩ := gathered
    refine ⟨front, ready, ?_, ?_, ?_⟩
    · simpa [FrameManager.inRole, record] using filling
    · rintro _ ⟨⟩
      exact FillRecord.mark_count bound (counts f record)
    · intro p member
      simp only [Vector.toList_set] at member
      rcases List.mem_or_eq_of_mem_set member with old | rfl
      · exact pictures p old
      · exact memWrite_wf (pictures _ (Vector.mem_toList_iff.2 (Vector.getElem_mem b.isLt))) _ _
  next => exact gathered

/-- No flag of a record just opened is set. -/
theorem FillRecord.fresh_count (sequence : Nat) :
    (FillRecord.fresh sequence).count =
      ((List.range Config.segments).filter fun i => (FillRecord.fresh sequence).bitmap.getLsbD i).length := by
  simp [FillRecord.fresh]

theorem FrameManager.Gathered.openFrame (gathered : v.Gathered) (closed : v.record = none)
    (bound : g.index < Config.segments) : (v.openFrame g).Gathered := by
  unfold FrameManager.openFrame
  split
  next b role =>
    have free := FrameManager.get_of_withRole role
    obtain ⟨front, ready, filling, counts, pictures⟩ := gathered
    refine FrameManager.Gathered.writeSegment ⟨?_, ?_, ?_, ?_, pictures⟩ bound
    · exact (FrameManager.inRole_setRole b .filling .front).trans (by simpa [free] using front)
    · exact (FrameManager.inRole_setRole b .filling .ready).trans_le (by simpa [free] using ready)
    · exact (FrameManager.inRole_setRole b .filling .filling).trans (by simpa [free, closed] using filling)
    · rintro _ ⟨⟩; exact FillRecord.fresh_count g.sequence
  next => exact gathered

theorem FrameManager.Gathered.abandon (gathered : v.Gathered) (opened : v.record.isSome = true)
    (bound : g.index < Config.segments) : (v.abandon g).Gathered := by
  obtain ⟨front, ready, filling, counts, pictures⟩ := gathered
  refine FrameManager.Gathered.writeSegment ⟨front, ready, ?_, ?_, pictures⟩ bound
  · simpa [FrameManager.inRole, opened] using filling
  · rintro _ ⟨⟩; exact FillRecord.fresh_count g.sequence

theorem FrameManager.Gathered.discard (gathered : v.Gathered) : v.discard.Gathered :=
  ⟨gathered.front, gathered.ready, gathered.filling, gathered.counts, gathered.pictures⟩

theorem FrameManager.Gathered.takeSegment (gathered : v.Gathered) (bound : g.index < Config.segments) :
    (v.takeSegment g).Gathered := by
  unfold FrameManager.takeSegment
  split
  next f opened =>
    dsimp only
    split_ifs
    · exact gathered.writeSegment bound
    · exact gathered.abandon (by simp [opened]) bound
    · exact gathered.discard
  next closed =>
    split
    next => exact gathered.openFrame closed bound
    next =>
      dsimp only
      split_ifs
      · exact gathered.discard
      · exact gathered.openFrame closed bound
      · exact gathered.discard

/-- A frame that completes is READY, and none is gathered then (R86). -/
theorem FrameManager.Gathered.complete (gathered : v.Gathered) (opened : v.record.isSome = true) :
    v.complete.InOrder := by
  have dropped : v.dropReady.Gathered ∧ v.dropReady.inRole .ready = 0 ∧ v.dropReady.record = v.record := by
    obtain ⟨front, ready, filling, counts, pictures⟩ := gathered
    unfold FrameManager.dropReady
    split
    next b role =>
      have is := FrameManager.get_of_withRole role
      have moved (y : Role) := FrameManager.inRole_setRole (v := v) b .free y
      simp only [is] at moved
      have none : (v.setRole b .free).inRole .ready = 0 := (moved .ready).trans (by simp; omega)
      exact ⟨⟨(moved .front).trans (by simpa using front), none.trans_le (Nat.zero_le 1),
        (moved .filling).trans filling, counts, pictures⟩, none, rfl⟩
    next none => exact ⟨⟨front, ready, filling, counts, pictures⟩, FrameManager.inRole_eq_zero_of_withRole none, rfl⟩
  obtain ⟨⟨front, -, filling, counts, pictures⟩, noReady, same⟩ := dropped
  obtain ⟨f, opened⟩ := Option.isSome_iff_exists.1 opened
  unfold FrameManager.complete
  dsimp only
  split
  next b f role record =>
    have is := FrameManager.get_of_withRole role
    have moved (y : Role) := FrameManager.inRole_setRole (v := v.dropReady) b .ready y
    simp only [is] at moved
    refine ⟨⟨(moved .front).trans (by simpa using front), (moved .ready).trans_le (by simp [noReady]),
      (moved .filling).trans (by simp [filling, same, opened]), by simp⟩, by simp [FrameManager.CountAgrees], pictures⟩
  next other =>
    exfalso
    cases role : v.dropReady.withRole .filling with
    | none => simp [FrameManager.inRole_eq_zero_of_withRole role, same, opened] at filling
    | some b => exact other b f role (same.trans opened)

/-- A rotation changes the roles of two buffers alone (R87). -/
theorem FrameManager.InOrder.rotate (order : v.InOrder) : v.rotate.InOrder := by
  unfold FrameManager.rotate
  split
  next b old isReady isFront =>
    obtain ⟨⟨front, ready, filling, counts⟩, agree, pictures⟩ := order
    have newRole := FrameManager.get_of_withRole isReady
    have oldRole := FrameManager.get_of_withRole isFront
    have apart : b ≠ old := by rintro rfl; simp [newRole] at oldRole
    have one := FrameManager.inRole_pos newRole
    have moved (y : Role) : ((v.setRole old .free).setRole b .front).inRole y =
        ((v.inRole y - if Role.front = y then 1 else 0) + (if Role.free = y then 1 else 0) -
          if Role.ready = y then 1 else 0) + if Role.front = y then 1 else 0 := by
      rw [FrameManager.inRole_setRole, FrameManager.inRole_setRole, FrameManager.get_setRole_of_ne apart, newRole, oldRole]
    exact ⟨⟨(moved .front).trans (by simp [front]), (moved .ready).trans_le (by simp; omega),
      (moved .filling).trans filling, counts⟩, agree, pictures⟩
  next => exact order

end

end Sys2Proof.Machine
end

section
/-! SUPPORT. What the operations on a room keep: its counters and channels (R93, R94, R122, R125), its lines, notes
and frames, its timers and timeline, its queue (R147, R155), and the passages between its states (R1 to R15). -/

namespace Sys2Proof.Machine

/-! ## Counters (R122, R125) -/

theorem Singer.CountsAgree.count {x : Singer} (agree : x.CountsAgree) (g : Grade) : (x.count g).CountsAgree := by
  obtain ⟨grades, verdicts, most, judged⟩ := agree
  by_cases below : x.graded < Config.counterMax
  · rw [Singer.count_of_lt g below]
    exact ⟨by cases g <;> simp <;> omega, verdicts, below, judged⟩
  · rw [Singer.count_of_max g (not_lt.1 below)]
    exact ⟨grades, verdicts, most, judged⟩

theorem Singer.CountsAgree.judge {x : Singer} (agree : x.CountsAgree) (v : Onset) : (x.judge v).CountsAgree := by
  obtain ⟨grades, verdicts, most, judged⟩ := agree
  unfold Singer.judge
  split
  next below =>
    cases v <;> refine ⟨grades, ?_, most, ?_⟩ <;> dsimp only <;> omega
  next => exact ⟨grades, verdicts, most, judged⟩

theorem Singer.CountsAgree.closeFor {x : Singer} (agree : x.CountsAgree) (m : Mic) (n : Note) :
    (n.closeFor m x).CountsAgree := by
  unfold Note.closeFor
  split
  · exact agree.judge _
  · exact agree

theorem closeNotes_countsAgree {p : PerMic Singer} (one : p.one.CountsAgree) (two : p.two.CountsAgree) (ns : List Note) :
    (closeNotes ns p).one.CountsAgree ∧ (closeNotes ns p).two.CountsAgree := by
  induction ns generalizing p with
  | nil => exact ⟨one, two⟩
  | cons n ns ih => exact ih (p := ⟨n.closeFor .mic1 p.one, n.closeFor .mic2 p.two⟩) (one.closeFor _ _) (two.closeFor _ _)

theorem Singer.CountsAgree.take {y : Singer} (agree : y.CountsAgree) (rm : Room) (m : Mic) (x : AnalysisResult) (n : Note) :
    (y.take rm m x n).CountsAgree := by
  unfold Singer.take
  dsimp only
  have judged : (if n.onset.get m = .pending then y.judge ((n.take rm m x).onset.get m) else y).CountsAgree := by
    split
    · exact agree.judge _
    · exact agree
  split
  · exact judged.count _
  · exact judged

/-! ## Channels (R93, R94) -/

theorem emptyRing_inRange : ∀ y ∈ emptyRing, -2048 ≤ y ∧ y ≤ 2047 := by
  intro y member
  rw [List.eq_of_mem_replicate member]
  decide

theorem MicChannel.start_inRange : MicChannel.start.InRange :=
  ⟨by decide, by decide, by decide, List.length_replicate .., emptyRing_inRange, by decide, by decide, by simp [MicChannel.start],
    by decide⟩

theorem MicChannel.InRange.clearRing {c : MicChannel} (range : c.InRange) : c.clearRing.InRange := by
  obtain ⟨staging, sequence, lost, -, -, -, -, -, dropped⟩ := range
  exact ⟨staging, sequence, lost, List.length_replicate .., emptyRing_inRange, (by decide : 0 < Config.ringCells),
    (by decide : 0 < Config.hopSamples), by simp [MicChannel.clearRing],
    dropped⟩

/-! ## Parts of a room that one operation changes -/

/-- Within limits a room that is no larger stays so. -/
theorem Room.NoLarger.withinLimits {a b : Room} (sizes : b.NoLarger a) (limits : a.WithinLimits) : b.WithinLimits := by
  obtain ⟨lines, syllables, notes, entries⟩ := limits
  exact ⟨sizes.lines.trans lines, sizes.syllables.trans syllables, sizes.notes.trans notes, sizes.entries.trans entries⟩

/-- Lines that are dropped and moved on (R52, R57). -/
theorem Room.keeps_lyrics {rm : Room} {y : Lyrics} (less : rm.lyrics.Reduces y) : rm.Keeps { rm with lyrics := y } := by
  have sizes : ({ rm with lyrics := y } : Room).NoLarger rm :=
    ⟨less.among.length_le, less.among.syllables_le, le_rfl, le_rfl⟩
  refine { sizes, agrees := ?_, recorded := ?_ }
  · rintro ⟨reasons, timers, ordered, head, limits, dark, order⟩
    refine ⟨reasons, timers, ordered, head, sizes.withinLimits limits, fun is => ?_, less.inOrder order⟩
    obtain ⟨entries, lines, notes⟩ := dark is
    have none := less.among.length_le
    rw [lines, List.length_nil, Nat.le_zero] at none
    exact ⟨entries, List.length_eq_zero_iff.1 none, notes⟩
  · rintro ⟨one, two, roles, count, pictures, rows, order, mics⟩
    exact ⟨one, two, roles, count, pictures, less.rows rows, less.inOrder order, mics⟩

/-- Notes that leave the list or are changed in place (R116, R118). -/
theorem Room.keeps_melody {rm : Room} {y : Melody} (fewer : y.notes.length ≤ rm.melody.notes.length) :
    rm.Keeps { rm with melody := y } := by
  refine { sizes := ⟨le_rfl, le_rfl, fewer, le_rfl⟩, agrees := ?_ }
  rintro ⟨reasons, timers, ordered, head, ⟨lines, syllables, notes, entries⟩, dark, order⟩
  refine ⟨reasons, timers, ordered, head, ⟨lines, syllables, fewer.trans notes, entries⟩, fun is => ?_, order⟩
  obtain ⟨noEntries, noLines, noNotes⟩ := dark is
  rw [noNotes, List.length_nil, Nat.le_zero] at fewer
  exact ⟨noEntries, noLines, List.length_eq_zero_iff.1 fewer⟩

theorem Room.keeps_singers {rm : Room} {p : PerMic Singer}
    (counts : rm.singers.one.CountsAgree → rm.singers.two.CountsAgree → p.one.CountsAgree ∧ p.two.CountsAgree) :
    rm.Keeps { rm with singers := p } := by
  refine { recorded := ?_ }
  rintro ⟨one, two, others⟩
  obtain ⟨one', two'⟩ := counts one two
  exact ⟨one', two', others⟩

theorem Room.keeps_mics {rm : Room} {p : PerMic MicChannel}
    (ranges : rm.mics.one.InRange → rm.mics.two.InRange → p.one.InRange ∧ p.two.InRange)
    (requests : ∀ m, (rm.mics.get m).request = none → (p.get m).request = none) : rm.Keeps { rm with mics := p } := by
  refine { requests, recorded := ?_ }
  rintro ⟨one, two, roles, count, pictures, rows, order, mic1, mic2⟩
  exact ⟨one, two, roles, count, pictures, rows, order, ranges mic1 mic2⟩

theorem Room.keeps_video {rm : Room} {v : FrameManager} (orders : rm.video.InOrder → v.InOrder) :
    rm.Keeps { rm with video := v } := by
  refine { recorded := ?_ }
  rintro ⟨one, two, roles, count, pictures, others⟩
  obtain ⟨roles', count', pictures'⟩ := orders ⟨roles, count, pictures⟩
  exact ⟨one, two, roles', count', pictures', others⟩

theorem Room.keeps_timeline {rm : Room} {t : Timeline}
    (ranges : rm.ValuesInRange → t.InRange ∧ (rm.phase.songOpen = true → t.songLength.isSome = true) ∧
      (rm.phase = .cueing → t.clock = 0)) : rm.Keeps { rm with timeline := t } := by
  refine { values := fun values => ?_ }
  obtain ⟨timeline, length, clock⟩ := ranges values
  obtain ⟨-, settings, presets, -⟩ := values
  exact ⟨timeline, settings, presets, length, clock⟩

theorem Room.keeps_settings {rm : Room} {t : Settings} (range : t.InRange) : rm.Keeps { rm with settings := t } := by
  refine { values := ?_ }
  rintro ⟨timeline, -, others⟩
  exact ⟨timeline, range, others⟩

/-- The rings cleared and the voiced runs reset (R98). -/
theorem Room.keeps_hushed (rm : Room) : rm.Keeps rm.hushed := by
  have mics := Room.keeps_mics (rm := rm) (p := rm.mics.both MicChannel.clearRing)
    (fun one two => ⟨one.clearRing, two.clearRing⟩) (fun m _ => by simp [MicChannel.clearRing])
  exact mics.trans (Room.keeps_singers fun one two => ⟨one, two⟩)

/-! ## The song timeline (R23 to R37) -/

theorem Room.keeps_sampleKnob (rm : Room) (a b : Bool) : rm.Keeps { rm with timeline := rm.timeline.sampleKnob a b } :=
  Room.keeps_timeline fun ⟨timeline, _, _, length, clock⟩ => ⟨Timeline.sampleKnob_inRange timeline a b, length, clock⟩

theorem Room.keeps_advance {rm : Room} (playing : rm.phase = .playing) :
    rm.Keeps { rm with timeline := rm.timeline.advance } :=
  Room.keeps_timeline fun ⟨timeline, _, _, length, _⟩ => by
    have length' := length (by simp [playing, Phase.songOpen])
    exact ⟨Timeline.advance_inRange timeline length', fun _ => by simpa using length', by simp [playing]⟩

theorem Room.keeps_timelineMark {rm : Room} (running : rm.phase = .playing ∨ rm.phase = .paused) (p : Nat) :
    rm.Keeps { rm with timeline := rm.timeline.mark p } :=
  Room.keeps_timeline fun ⟨timeline, _, _, length, _⟩ => by
    have length' := length (by rcases running with h | h <;> simp [h, Phase.songOpen])
    exact ⟨Timeline.mark_inRange timeline length' p, fun _ => by simpa using length', by rcases running with h | h <;> simp [h]⟩

theorem Room.keeps_detent {rm : Room} {d : Int} (moves : rm.keyMoves d = true) :
    rm.Keeps { rm with timeline := { rm.timeline with
      keyOffset := rm.timeline.keyOffset + d, keyStamp := rm.timeline.clock } } := by
  refine Room.keeps_timeline fun ⟨timeline, _, _, length, clock⟩ => ⟨?_, length, clock⟩
  obtain ⟨low, high, acc, catchUp, hold, one, lengths, -, -, detLow, detHigh, held, -⟩ := timeline
  simp only [Room.keyMoves, Bool.and_eq_true, decide_eq_true_eq] at moves
  exact ⟨low, high, acc, catchUp, hold, one, lengths, moves.1.2, moves.2, detLow, detHigh, held, le_rfl⟩

theorem Room.keeps_tempo {rm : Room} (tempo : Nat) :
    rm.Keeps { rm with timeline := { rm.timeline with tempo := clampNat 80 120 tempo } } := by
  refine Room.keeps_timeline fun ⟨timeline, _, _, length, clock⟩ => ⟨?_, length, clock⟩
  obtain ⟨-, -, others⟩ := timeline
  obtain ⟨low, high⟩ := clampNat_bounds (lo := 80) (hi := 120) (by decide) tempo
  exact ⟨low, high, others⟩

/-! ## Lines, notes and frames -/

theorem Room.keeps_passNotes (rm : Room) (t : Nat) : rm.Keeps (rm.passNotes t) := by
  have kept : rm.Keeps { rm with melody := { rm.melody with notes := rm.melody.notes.filter (fun n => t < n.stop) } } :=
    Room.keeps_melody (List.length_filter_le ..)
  unfold Room.passNotes
  dsimp only
  split
  · exact kept.trans (Room.keeps_singers fun one two => closeNotes_countsAgree one two _)
  · exact kept
  all_goals exact .refl rm

theorem updateHolding_length (part : MicPart) (stamp : Nat) (f : Note → Note) (ns : List Note) :
    (updateHolding part stamp f ns).length = ns.length := by
  induction ns with
  | nil => rfl
  | cons n ns ih => unfold updateHolding; split <;> simp [ih]

theorem Room.keeps_takeResult (rm : Room) (m : Mic) (x : AnalysisResult) : rm.Keeps (rm.takeResult m x) := by
  have notes := Room.keeps_melody (rm := rm) (y := { rm.melody with
    notes := updateHolding (rm.settings.micParts.get m) x.stamp (fun n => n.take rm m x) rm.melody.notes })
    (updateHolding_length ..).le
  refine notes.trans (Room.keeps_singers (rm := { rm with melody := _ }) fun one two => ?_)
  have own : (rm.singers.get m).CountsAgree := by cases m; exacts [one, two]
  have taken : ∀ o : Option Note, (match o with
      | some n => (rm.singers.get m).take rm m x n
      | none => rm.singers.get m).CountsAgree := by
    rintro (_ | n)
    · exact own
    · exact own.take rm m x n
  cases m
  · exact ⟨taken _, two⟩
  · exact ⟨one, taken _⟩

theorem readSegment_bound {payload : List Byte} {g : Segment} (read : readSegment payload = some g) :
    g.index < Config.segments := by
  unfold readSegment at read
  split at read
  next inside =>
    rw [← Option.some.inj read]
    show 4 * u16 payload 2 + u8 payload 4 < 2880
    omega
  next => simp at read

theorem Room.gather_gathered {rm : Room} (order : rm.video.InOrder) (payload : List Byte) :
    (rm.gather payload).video.Gathered := by
  unfold Room.gather
  split
  next => exact order.gathered.discard
  next g read => exact order.gathered.takeSegment (readSegment_bound read)

/-- What the taking of a VIDEO cell leaves of the buffers. -/
theorem Room.gather_eq (rm : Room) (payload : List Byte) :
    rm.gather payload = { rm with video := (rm.gather payload).video } := by
  unfold Room.gather; split <;> rfl

theorem Room.keeps_stale {rm : Room} {t : StaleTimer} (allowed : rm.Agrees → t.allowedIn rm.phase = true) :
    rm.Keeps { rm with staleTimer := t } := by
  refine { agrees := fun agree => ?_ }
  have stale := allowed agree
  obtain ⟨reasons, ⟨mark, cue, hold, -⟩, others⟩ := agree
  exact ⟨reasons, ⟨mark, cue, hold, stale⟩, others⟩

theorem Room.keeps_restartStale (rm : Room) : rm.Keeps rm.restartStale := by
  unfold Room.restartStale
  split
  next => exact .refl rm
  all_goals next is => exact Room.keeps_stale fun _ => by simp [StaleTimer.allowedIn, is]

/-- A VIDEO cell taken by its room (R82 to R86). -/
theorem Room.keeps_takeVideo (rm : Room) (payload : List Byte) : rm.Keeps (rm.takeVideo payload) := by
  unfold Room.takeVideo
  split
  next => exact .refl rm
  next =>
    unfold Room.completeFrame
    rw [Room.gather_eq]
    split
    next due =>
      have opened : (rm.gather payload).video.record.isSome = true := by
        cases record : (rm.gather payload).video.record <;> simp [FrameManager.completionDue, record] at due ⊢
      exact (Room.keeps_video fun order => (Room.gather_gathered order payload).complete opened).trans
        (Room.keeps_restartStale _)
    next due =>
      exact Room.keeps_video fun order => (Room.gather_gathered order payload).inOrder (Bool.eq_false_iff.2 due)

/-- An output frame start (R62, R87). -/
theorem Room.keeps_frameStart (rm : Room) (g : GlyphStore) : rm.Keeps (rm.frameStart g) :=
  (Room.keeps_video fun order => order.rotate).trans (Room.keeps_compositor _ _)

/-! ## Timers and reasons (R2, R3, R15) -/

theorem Timer.elapse_ne_stopped {t : Timer} : t.elapse ≠ .stopped ↔ t ≠ .stopped := by
  cases t <;> simp [Timer.elapse]

theorem StaleTimer.allowedIn_elapse (t : StaleTimer) (p : Phase) : t.elapse.allowedIn p = t.allowedIn p := by
  cases t <;> rfl

theorem Room.keeps_elapse (rm : Room) : rm.Keeps rm.elapse := by
  refine { agrees := ?_ }
  rintro ⟨reasons, ⟨mark, cue, hold, stale⟩, ordered, ⟨cueing, singing, offered, timer⟩, others⟩
  refine ⟨reasons, ⟨?_, ?_, ?_, ?_⟩, ordered, ⟨cueing, singing, offered, ?_⟩, others⟩
  · exact mark ∘ Timer.elapse_ne_stopped.1
  · exact cue ∘ Timer.elapse_ne_stopped.1
  · exact hold ∘ Timer.elapse_ne_stopped.1
  · exact (StaleTimer.allowedIn_elapse ..).trans stale
  · exact Timer.elapse_ne_stopped.trans timer

theorem Room.keeps_markTimer {rm : Room} {t : Timer} (guarded : t ≠ .stopped → rm.phase = .playing) :
    rm.Keeps { rm with markTimer := t } := by
  refine { agrees := ?_ }
  rintro ⟨reasons, ⟨-, cue, hold, stale⟩, others⟩
  exact ⟨reasons, ⟨guarded, cue, hold, stale⟩, others⟩

theorem Room.keeps_stopCue (rm : Room) : rm.Keeps { rm with cueTimer := .stopped } := by
  refine { agrees := ?_ }
  rintro ⟨reasons, ⟨mark, -, hold, stale⟩, others⟩
  exact ⟨reasons, ⟨mark, absurd rfl, hold, stale⟩, others⟩

theorem Room.keeps_stopHold (rm : Room) : rm.Keeps { rm with holdTimer := .stopped } := by
  refine { agrees := ?_ }
  rintro ⟨reasons, ⟨mark, cue, -, stale⟩, others⟩
  exact ⟨reasons, ⟨mark, cue, absurd rfl, stale⟩, others⟩

theorem Room.keeps_reasons {rm : Room} {why : PauseReasons} (paused : rm.phase = .paused) (some : why ≠ .empty) :
    rm.Keeps { rm with reasons := why } := by
  refine { agrees := ?_ }
  rintro ⟨-, others⟩
  exact ⟨⟨fun _ => some, fun _ => paused⟩, others⟩

end Sys2Proof.Machine
end

section
/-! SUPPORT. What the passages of a room between its states keep (R4 to R15), and what its queue keeps while entries
are offered, moved, let in and taken away (R147, R150, R154 to R157). -/

namespace Sys2Proof.Machine

/-! ## Holds (R8 to R10) -/

/-- Outside PAUSED the reasons agree when there are none (R2). -/
theorem Room.reasonsAgree_of_empty {rm : Room} (other : rm.phase ≠ .paused) (none : rm.reasons = .empty) :
    rm.ReasonsAgree := by
  simp [Room.ReasonsAgree, other, none]

theorem Room.reasons_empty {rm : Room} (agree : rm.ReasonsAgree) (other : rm.phase ≠ .paused) :
    rm.reasons = .empty :=
  not_not.1 (mt agree.2 other)

theorem Room.keeps_hold {rm : Room} {why : PauseReasons} (playing : rm.phase = .playing) (some : why ≠ .empty) :
    rm.Keeps { rm with phase := .paused, reasons := why, markTimer := .stopped } := by
  refine { agrees := ?_, values := ?_ }
  · rintro ⟨-, ⟨-, cue, hold, stale⟩, ordered, ⟨cueing, singing, offered, timer⟩, limits, -, order⟩
    simp only [playing, reduceCtorEq, false_iff, Bool.not_eq_true, true_or, true_iff] at cueing singing
    refine ⟨⟨fun _ => some, fun _ => rfl⟩, ⟨absurd rfl, by simpa [playing] using cue, by simpa [playing] using hold, ?_⟩, ordered, ?_, limits,
      by simp, order⟩
    · cases h : rm.staleTimer <;> simp [h, playing, StaleTimer.allowedIn] at stale ⊢
    · exact ⟨by simp [cueing], by simp [singing], by simpa [playing] using offered, timer⟩
  · rintro ⟨timeline, settings, presets, length, -⟩
    exact ⟨timeline, settings, presets, fun _ => length (by simp [playing, Phase.songOpen]), by simp⟩

theorem Room.keeps_release {rm : Room} (paused : rm.phase = .paused) :
    rm.Keeps { rm with
      phase := .playing, reasons := .empty, markTimer := .running rm.settings.markTimeout } := by
  refine { agrees := ?_, values := ?_ }
  · rintro ⟨-, ⟨-, cue, hold, stale⟩, ordered, ⟨cueing, singing, offered, timer⟩, limits, -, order⟩
    simp only [paused, reduceCtorEq, false_iff, Bool.not_eq_true, or_true, true_iff] at cueing singing
    refine ⟨Room.reasonsAgree_of_empty (by simp) rfl, ⟨fun _ => rfl, by simpa [paused] using cue, by simpa [paused] using hold, ?_⟩, ordered, ?_, limits,
      by simp, order⟩
    · cases h : rm.staleTimer <;> simp [h, paused, StaleTimer.allowedIn] at stale ⊢
    · exact ⟨by simp [cueing], by simp [singing], by simpa [paused] using offered, timer⟩
  · rintro ⟨timeline, settings, presets, length, -⟩
    exact ⟨timeline, settings, presets, fun _ => length (by simp [paused, Phase.songOpen]), by simp⟩

/-! ## Song end and abort (R11, R13, R14) -/

theorem RequestQueue.length_without_le (q : RequestQueue) (e : Entry) : (q.without e).entries.length ≤ q.entries.length :=
  List.length_filter_le ..

theorem RequestQueue.PresetsInRange.without {q : RequestQueue} (presets : q.PresetsInRange) (e : Entry) :
    (q.without e).PresetsInRange := fun x member => presets x (List.mem_of_mem_filter member)

/-- A room whose song is over: outside CUEING, PLAYING and PAUSED the timers of those states are stopped. -/
theorem Room.TimersAgree.of_running {rm : Room} (timers : rm.TimersAgree)
    (running : rm.phase = .playing ∨ rm.phase = .paused) :
    rm.cueTimer = .stopped ∧ rm.holdTimer = .stopped := by
  obtain ⟨-, cue, hold, -⟩ := timers
  refine ⟨by_contra fun runs => ?_, by_contra fun runs => ?_⟩
  · rcases running with is | is <;> simp [cue runs] at is
  · rcases running with is | is <;> simp [hold runs] at is

theorem Room.keeps_songEnded {rm : Room} {e : Entry} (head : rm.queue.head? = some e)
    (running : rm.Agrees → rm.phase = .playing ∨ rm.phase = .paused) :
    rm.Keeps (rm.songEnded e (rm.queue.without e)) := by
  have sizes : (rm.songEnded e (rm.queue.without e)).NoLarger rm := ⟨le_rfl, le_rfl, le_rfl, rm.queue.length_without_le e⟩
  have hushed := Room.keeps_hushed rm
  refine { sizes, agrees := fun agree => ?_, recorded := hushed.recorded, values := ?_, requests := hushed.requests }
  · have running := running agree
    obtain ⟨-, timers, ordered, head', limits, -, order⟩ := agree
    obtain ⟨cue, hold⟩ := timers.of_running running
    have idle := ordered.idle_without_head head head'.2.2.2
    refine ⟨Room.reasonsAgree_of_empty (by simp [Room.songEnded]) rfl, ⟨absurd rfl, ?_, fun _ => rfl, ?_⟩, ordered.without e,
      Room.headAgrees_of_idle idle rfl, sizes.withinLimits limits, by simp [Room.songEnded], order⟩
    · exact fun runs => absurd cue runs
    · cases h : rm.staleTimer <;> simp [Room.songEnded, h, StaleTimer.suspend, StaleTimer.allowedIn]
  · rintro ⟨timeline, settings, presets, -, -⟩
    exact ⟨timeline, settings, presets.without e, nofun, nofun⟩

/-- The room back in ATTRACT, its reasons empty and its mark and cue timers stopped (R13, R14). -/
theorem Room.keeps_songAborted {rm : Room} {e : Entry} {ln : RequestLine} (head : rm.queue.head? = some e)
    (told : rm.line.Told ln) (opened : rm.Agrees → rm.phase.songOpen = true) :
    rm.Keeps (rm.songAborted e (rm.queue.without e) ln) := by
  have less := rm.lyrics.clear_reduces
  have sizes : (rm.songAborted e (rm.queue.without e) ln).NoLarger rm :=
    ⟨less.among.length_le, less.among.syllables_le, Nat.zero_le _, rm.queue.length_without_le e⟩
  refine { sizes, told, agrees := fun agree => ?_, recorded := ?_, values := ?_ }
  · have opened := opened agree
    obtain ⟨-, ⟨-, -, hold, stale⟩, ordered, head', limits, -, order⟩ := agree
    have idle := ordered.idle_without_head head head'.2.2.2
    refine ⟨Room.reasonsAgree_of_empty (by simp [Room.songAborted]) rfl, ⟨absurd rfl, absurd rfl, fun runs => ?_, ?_⟩, ordered.without e,
      Room.headAgrees_of_idle idle rfl, sizes.withinLimits limits, by simp [Room.songAborted], less.inOrder order⟩
    · simp [hold runs, Phase.songOpen] at opened
    · cases phase : rm.phase <;> cases h : rm.staleTimer <;>
        simp [phase, h, Phase.songOpen, StaleTimer.allowedIn, Room.songAborted] at opened stale ⊢
  · rintro ⟨one, two, roles, count, pictures, rows, order, mics⟩
    exact ⟨one, two, roles, count, pictures, less.rows rows, less.inOrder order, mics⟩
  · rintro ⟨timeline, settings, presets, -, -⟩
    exact ⟨timeline, settings, presets.without e, nofun, nofun⟩

/-- A room in a state that no agreement allows may pass to any state without an open song. -/
theorem Room.keeps_passed {rm : Room} {p : Phase} {why : PauseReasons} {mark cue hold : Timer} {stale : StaleTimer}
    (never : ¬rm.Agrees) (closed : p.songOpen = false) :
    rm.Keeps { rm with
      phase := p, reasons := why, markTimer := mark, cueTimer := cue, holdTimer := hold, staleTimer := stale } := by
  refine { agrees := fun agree => absurd agree never, values := ?_ }
  rintro ⟨timeline, settings, presets, -, -⟩
  refine ⟨timeline, settings, presets, fun opened => ?_, fun is => ?_⟩
  · exact absurd (opened.symm.trans closed) (by simp)
  · have is : p = .cueing := is
    simp [is, Phase.songOpen] at closed

/-- The result over, the room is back in ATTRACT and a suspended video-stale timer runs on (R12). -/
theorem Room.keeps_resultOver {rm : Room} (result : rm.phase = .result) :
    rm.Keeps { rm with phase := .attract, holdTimer := .stopped, staleTimer := rm.staleTimer.resume } := by
  refine { agrees := ?_, values := ?_ }
  · rintro ⟨reasons, ⟨mark, cue, -, stale⟩, ordered, head, limits, -, order⟩
    have idle := Room.idle_of_headAgrees head (by simp [result, Phase.songOpen]) (by simp [result])
    have empty := Room.reasons_empty reasons (by simp [result])
    refine ⟨Room.reasonsAgree_of_empty (by simp) empty, ⟨by simpa [result] using mark, by simpa [result] using cue, absurd rfl, ?_⟩, ordered,
      Room.headAgrees_of_idle idle rfl, limits, by simp, order⟩
    cases h : rm.staleTimer <;> simp [StaleTimer.resume, StaleTimer.allowedIn]
  · rintro ⟨timeline, settings, presets, -, -⟩
    exact ⟨timeline, settings, presets, nofun, nofun⟩

/-! ## Opening and closing a room (R4 to R6) -/

theorem Room.keeps_opened {rm : Room} (dark : rm.phase = .dark) :
    rm.Keeps { rm with phase := .attract, staleTimer := .running Config.stalePeriod } := by
  refine { agrees := ?_, values := ?_ }
  · rintro ⟨reasons, ⟨mark, cue, hold, -⟩, ordered, head, limits, -, order⟩
    have idle := Room.idle_of_headAgrees head (by simp [dark, Phase.songOpen]) (by simp [dark])
    have empty := Room.reasons_empty reasons (by simp [dark])
    exact ⟨Room.reasonsAgree_of_empty (by simp) empty, ⟨by simpa [dark] using mark, by simpa [dark] using cue, by simpa [dark] using hold, rfl⟩,
      ordered, Room.headAgrees_of_idle idle rfl, limits, by simp, order⟩
  · rintro ⟨timeline, settings, presets, -, -⟩
    exact ⟨timeline, settings, presets, nofun, nofun⟩

theorem FrameManager.start_inOrder : FrameManager.start.InOrder := by decide

theorem Singer.start_countsAgree : Singer.start.CountsAgree := by decide

theorem Room.keeps_closed {rm : Room} (d : Display) {ln : RequestLine} (told : rm.line.Told ln) :
    rm.Keeps { rm.closed d with line := ln } := by
  have less := rm.lyrics.clear_reduces
  have sizes : ({ rm.closed d with line := ln } : Room).NoLarger rm :=
    ⟨less.among.length_le, less.among.syllables_le, Nat.zero_le _, Nat.zero_le _⟩
  refine { sizes, told, agrees := ?_, recorded := ?_, values := ?_, requests := fun m _ => by cases m <;> rfl }
  · rintro ⟨-, -, ⟨-, -, -, counter⟩, -, limits, -, order⟩
    exact ⟨Room.reasonsAgree_of_empty (by simp [Room.closed]) rfl, ⟨absurd rfl, absurd rfl, absurd rfl, rfl⟩,
      ⟨nofun, List.nodup_nil, nofun, counter⟩, Room.headAgrees_of_idle ⟨nofun, rfl⟩ rfl, sizes.withinLimits limits,
      fun _ => ⟨rfl, rfl, rfl⟩, less.inOrder order⟩
  · rintro ⟨-, -, -, -, -, rows, order, -⟩
    obtain ⟨roles, count, pictures⟩ := FrameManager.start_inOrder
    exact ⟨Singer.start_countsAgree, Singer.start_countsAgree, roles, count, pictures, less.rows rows, less.inOrder order,
      MicChannel.start_inRange, MicChannel.start_inRange⟩
  · rintro ⟨timeline, settings, -, -, -⟩
    obtain ⟨low, high⟩ := Settings.InRange.defaultTempo settings
    exact ⟨Timeline.clear_inRange _ low high, settings, nofun, nofun, nofun⟩

/-! ## The song (R7, R160) -/

theorem RequestQueue.length_setHead (q : RequestQueue) (st : EntryState) :
    (q.setHead st).entries.length = q.entries.length := by
  unfold RequestQueue.setHead; split <;> simp [*]

@[simp] theorem RequestQueue.setHead_offerTimer (q : RequestQueue) (st : EntryState) :
    (q.setHead st).offerTimer = q.offerTimer := by
  unfold RequestQueue.setHead; split <;> rfl

theorem RequestQueue.PresetsInRange.setHead {q : RequestQueue} (presets : q.PresetsInRange) (st : EntryState) :
    (q.setHead st).PresetsInRange := by
  unfold RequestQueue.setHead
  split
  next => exact presets
  next e es entries =>
    rw [RequestQueue.PresetsInRange, entries] at presets
    exact List.forall_mem_cons.2 ⟨presets e (by simp), fun x member => presets x (by simp [member])⟩

theorem Room.keeps_startSong {rm : Room} (cueing : rm.phase = .cueing) {position : Nat}
    (within : ∀ l ∈ rm.timeline.songLength, position ≤ l) : rm.Keeps (rm.startSong position) := by
  have sizes : (rm.startSong position).NoLarger rm := ⟨le_rfl, le_rfl, le_rfl, (rm.queue.length_setHead _).le⟩
  refine { sizes, agrees := ?_, values := ?_ }
  · rintro ⟨reasons, ⟨mark, cue, hold, stale⟩, ordered, ⟨loads, -, offered, timer⟩, limits, -, order⟩
    obtain ⟨e, head, loading⟩ := RequestQueue.headIs_iff.1 (loads.1 cueing)
    have some : rm.queue.entries ≠ [] := List.ne_nil_of_mem (List.mem_of_head? head)
    have stopped : rm.queue.offerTimer = .stopped := by
      by_contra runs
      simp [offered (timer.1 runs)] at cueing
    have empty := Room.reasons_empty reasons (by simp [cueing])
    refine ⟨Room.reasonsAgree_of_empty (by simp [Room.startSong]) empty, ⟨fun _ => rfl, absurd rfl,
      by simpa [Room.startSong, cueing] using hold, ?_⟩, ordered.setHead _, ?_, sizes.withinLimits limits, by simp [Room.startSong], order⟩
    · cases h : rm.staleTimer <;> simp [h, cueing, StaleTimer.allowedIn, Room.startSong] at stale ⊢
    · simp [Room.HeadAgrees, Room.startSong, RequestQueue.headIs_setHead, some, stopped]
  · rintro ⟨⟨low, high, acc, catchUp, hold, one, lengths, keyLow, keyHigh, detLow, detHigh, clock, stamp⟩, settings, presets,
      length, zero⟩
    obtain ⟨l, length⟩ := Option.isSome_iff_exists.1 (length (by simp [cueing, Phase.songOpen]))
    have held : position ≤ rm.timeline.limit := by
      have := within l length
      simp only [Timeline.limit, Timeline.guard, length, Option.map_some, Option.getD_some]
      omega
    have early : rm.timeline.keyStamp ≤ position := by have := zero cueing; omega
    exact ⟨⟨low, high, acc, catchUp, hold, one, lengths, keyLow, keyHigh, detLow, detHigh, held, early⟩, settings,
      presets.setHead _, fun _ => by simp [Room.startSong, length], by simp [Room.startSong]⟩

theorem Room.keeps_openSong {rm : Room} {e : Entry} (attract : rm.phase = .attract) (head : rm.queue.head? = some e)
    {length tempo : Nat} (one : 1 ≤ length) (most : length ≤ Config.songLengthMax)
    (tempos : rm.settings.InRange → 80 ≤ tempo ∧ tempo ≤ 120) : rm.Keeps (rm.openSong e length tempo) := by
  have less := rm.lyrics.clear_reduces
  have some : rm.queue.entries ≠ [] := List.ne_nil_of_mem (List.mem_of_head? head)
  have sizes : (rm.openSong e length tempo).NoLarger rm :=
    ⟨less.among.length_le, less.among.syllables_le, Nat.zero_le _, (rm.queue.length_setHead _).le⟩
  refine { sizes, agrees := ?_, recorded := ?_, values := ?_, requests := ?_ }
  · rintro ⟨reasons, ⟨mark, cue, hold, stale⟩, ordered, head', limits, -, order⟩
    have empty := Room.reasons_empty reasons (by simp [attract])
    refine ⟨Room.reasonsAgree_of_empty (by simp [Room.openSong]) empty, ⟨by simpa [attract, Room.openSong, Room.clearSong] using mark, fun _ => rfl,
      by simpa [attract, Room.openSong, Room.clearSong] using hold, ?_⟩, ordered.setHead .loading, ?_, sizes.withinLimits limits, by simp [Room.openSong],
      less.inOrder order⟩
    · cases h : rm.staleTimer <;> simp [h, attract, StaleTimer.allowedIn, Room.openSong, Room.clearSong] at stale ⊢
    · have heads (st : EntryState) : (rm.openSong e length tempo).queue.headIs st = true ↔ st = .loading :=
        (RequestQueue.headIs_setHead (q := rm.queue) .loading st).trans (by simp [some])
      have phase : (rm.openSong e length tempo).phase = .cueing := rfl
      have timer : (rm.openSong e length tempo).queue.offerTimer = .stopped := rfl
      simp [Room.HeadAgrees, heads, phase, timer]
  · rintro ⟨-, -, roles, count, pictures, rows, order, ⟨s1, q1, l1, r1, v1, w1, h1, a1, -⟩, s2, q2, l2, r2, v2, w2, h2, a2, -⟩
    exact ⟨Singer.start_countsAgree, Singer.start_countsAgree, roles, count, pictures, less.rows rows, less.inOrder order,
      ⟨s1, q1, l1, r1, v1, w1, h1, a1, Nat.zero_le _⟩, s2, q2, l2, r2, v2, w2, h2, a2, Nat.zero_le _⟩
  · rintro ⟨timeline, settings, presets, -, -⟩
    obtain ⟨low, high⟩ := tempos settings
    exact ⟨Timeline.openSong_inRange timeline low high one most (presets e (List.mem_of_head? head)), settings,
      presets.setHead .loading, fun _ => rfl, fun _ => rfl⟩
  · intro m none
    simpa [Room.openSong, Room.clearSong] using none

end Sys2Proof.Machine
end

section
/-! SUPPORT. What a room keeps while its queue's entries are offered, taken away, moved and let in (R147, R148, R150,
R154 to R157). -/

namespace Sys2Proof.Machine

/-! ## Heads and tickets -/

/-- Another queue in a room keeps it in order when it is ordered, no longer, and its head agrees with the room. -/
theorem Room.keeps_queue {rm : Room} {q : RequestQueue} (fewer : q.entries.length ≤ rm.queue.entries.length)
    (presets : rm.queue.PresetsInRange → q.PresetsInRange)
    (agrees : rm.queue.Ordered → rm.HeadAgrees → q.Ordered ∧ ({ rm with queue := q } : Room).HeadAgrees) :
    rm.Keeps { rm with queue := q } := by
  refine { sizes := ⟨le_rfl, le_rfl, le_rfl, fewer⟩, agrees := ?_, values := ?_ }
  · rintro ⟨reasons, timers, ordered, head, ⟨lines, syllables, notes, entries⟩, dark, order⟩
    obtain ⟨ordered', head'⟩ := agrees ordered head
    refine ⟨reasons, timers, ordered', head', ⟨lines, syllables, notes, fewer.trans entries⟩, fun is => ?_, order⟩
    obtain ⟨noEntries, others⟩ := dark is
    rw [noEntries, List.length_nil, Nat.le_zero] at fewer
    exact ⟨List.length_eq_zero_iff.1 fewer, others⟩
  · rintro ⟨timeline, settings, range, others⟩
    exact ⟨timeline, settings, presets range, others⟩

/-- The suspension of offers is read by no agreement. -/
theorem Room.keeps_suspended (rm : Room) (b : Bool) : rm.Keeps { rm with queue := { rm.queue with suspended := b } } := {}

/-- A queue whose head is in an active state exactly when another's is, with the same offer timer, agrees as it does. -/
theorem Room.headAgrees_of_same {rm : Room} {q : RequestQueue} (agree : rm.HeadAgrees)
    (heads : ∀ st ≠ .queued, q.headIs st = rm.queue.headIs st) (timer : q.offerTimer = rm.queue.offerTimer) :
    ({ rm with queue := q } : Room).HeadAgrees := by
  simpa [Room.HeadAgrees, heads, timer] using agree

/-! ## Offers (R155 to R157) -/

theorem Room.keeps_offered {rm : Room} {e : Entry} (attract : rm.phase = .attract) (head : rm.queue.head? = some e)
    (n : Nat) : rm.Keeps { rm with queue := { rm.queue.setHead .offered with offerTimer := .running n } } := by
  have some : rm.queue.entries ≠ [] := List.ne_nil_of_mem (List.mem_of_head? head)
  have heads (st : EntryState) :
      ({ rm.queue.setHead .offered with offerTimer := .running n } : RequestQueue).headIs st = true ↔ st = .offered :=
    (RequestQueue.headIs_setHead (q := rm.queue) .offered st).trans (by simp [some])
  refine Room.keeps_queue (rm.queue.length_setHead _).le (fun presets => presets.setHead _) fun ordered _ => ?_
  exact ⟨ordered.setHead .offered, by simp [Room.HeadAgrees, heads, attract]⟩

theorem Room.keeps_lapse {rm : Room} {e : Entry} (head : rm.queue.head? = some e) (offered : e.state = .offered) :
    rm.Keeps { rm with queue := rm.queue.lapse e } := by
  have heads (st : EntryState) : (rm.queue.lapse e).headIs st = true ↔ rm.queue.entries ≠ [] ∧ st = .queued :=
    RequestQueue.headIs_setHead (q := rm.queue) .queued st
  refine Room.keeps_queue (rm.queue.length_setHead _).le (fun presets => presets.setHead _) fun ordered agree => ?_
  have attract := agree.2.2.1 (RequestQueue.headIs_iff.2 ⟨e, head, offered⟩)
  have timer : (rm.queue.lapse e).offerTimer = .stopped := rfl
  exact ⟨ordered.setHead .queued, by simp [Room.HeadAgrees, heads, attract, timer]⟩

/-- The offer timer stopped while no head is OFFERED. -/
theorem Room.keeps_stopOffer {rm : Room} (other : rm.queue.headIs .offered = false) :
    rm.Keeps { rm with queue := { rm.queue with offerTimer := .stopped } } := by
  have same (st : EntryState) :
      ({ rm.queue with offerTimer := .stopped } : RequestQueue).headIs st = rm.queue.headIs st := rfl
  refine Room.keeps_queue le_rfl id fun ordered ⟨cueing, singing, _, _⟩ => ⟨ordered, ?_⟩
  simp [Room.HeadAgrees, same, other, cueing, singing]

/-! ## Entries that leave (R152, R161) -/

/-- With a QUEUED entry gone the head is in the same active state, if it was in one. -/
theorem RequestQueue.headIs_remove {q : RequestQueue} (ordered : q.Ordered) {e : Entry} (member : e ∈ q.entries)
    (queued : e.state = .queued) {st : EntryState} (active : st ≠ .queued) :
    (q.remove e).headIs st = q.headIs st := by
  obtain ⟨tail, nodup, -⟩ := ordered
  rw [Bool.eq_iff_iff, RequestQueue.headIs_iff, RequestQueue.headIs_iff]
  simp only [RequestQueue.head?, RequestQueue.remove]
  cases entries : q.entries with
  | nil => simp [entries] at member
  | cons x xs =>
    rw [entries] at member nodup tail
    simp only [List.map_cons, List.nodup_cons, List.mem_map, not_exists, not_and] at nodup
    by_cases same : x.ticket = e.ticket
    · obtain rfl : e = x := by
        rcases List.mem_cons.1 member with h | later
        · exact h
        · exact absurd same.symm (nodup.1 e later)
      rw [RequestQueue.filter_ticket_of_cons fun y later => nodup.1 y later]
      constructor
      · rintro ⟨y, first, rfl⟩
        exact absurd (tail y (List.mem_of_head? first)) active
      · rintro ⟨y, first, rfl⟩
        obtain rfl := Option.some.inj first
        exact absurd queued active
    · rw [List.filter_cons_of_pos (by simpa using same)]
      simp

/-- An entry outside a song leaves the queue. -/
theorem Room.keeps_remove {rm : Room} {e : Entry} (member : e ∈ rm.queue.entries)
    (waiting : e.state = .queued ∨ e.state = .offered) : rm.Keeps { rm with queue := rm.queue.remove e } := by
  refine Room.keeps_queue (rm.queue.length_without_le e) (fun presets => presets.without e) fun ordered agree => ?_
  refine ⟨ordered.without e, ?_⟩
  rcases waiting with queued | offered
  · refine Room.headAgrees_of_same agree (fun st active => RequestQueue.headIs_remove ordered member queued active) ?_
    simp [RequestQueue.remove, queued]
  · have head := ordered.head_of_active member (by simp [offered])
    have attract := agree.2.2.1 (RequestQueue.headIs_iff.2 ⟨e, head, offered⟩)
    have idle := ordered.idle_without_head head agree.2.2.2
    exact Room.headAgrees_of_idle ⟨idle.head, idle.timer⟩ (by simp [attract, Phase.songOpen])

/-! ## Entries put in (R150, R154) -/

/-- A QUEUED entry put in behind an active head leaves the head in its active state. -/
theorem RequestQueue.headIs_insert {q : RequestQueue} {n : Nat} {e : Entry} (queued : e.state = .queued)
    (behind : q.head?.any Entry.active = true → 1 ≤ n) {st : EntryState} (active : st ≠ .queued) :
    (q.insert n e).headIs st = q.headIs st := by
  simp only [RequestQueue.headIs, RequestQueue.head?, RequestQueue.insert] at behind ⊢
  cases entries : q.entries with
  | nil => simp [queued, Ne.symm active]
  | cons x xs =>
    cases n with
    | succ n => simp
    | zero =>
      simp only [entries, List.head?_cons, Option.any_some, Entry.active, decide_eq_true_eq] at behind
      have first : x.state = .queued := by_contra fun h => absurd (behind h) (by omega)
      simp [queued, first]

theorem RequestQueue.insert_perm (q : RequestQueue) (n : Nat) (e : Entry) :
    (q.insert n e).entries.Perm (e :: q.entries) := by
  simpa [RequestQueue.insert] using
    List.perm_middle (a := e) (l₁ := q.entries.take n) (l₂ := q.entries.drop n)

theorem RequestQueue.length_insert (q : RequestQueue) (n : Nat) (e : Entry) :
    (q.insert n e).entries.length = q.entries.length + 1 := by
  simpa using (q.insert_perm n e).length_eq

/-- A QUEUED entry with a ticket of its own put in behind an active head leaves a queue in order. -/
theorem RequestQueue.Ordered.insert {q : RequestQueue} (ordered : q.Ordered) {n : Nat} {e : Entry}
    (queued : e.state = .queued) (behind : q.head?.any Entry.active = true → 1 ≤ n)
    (own : ∀ x ∈ q.entries, x.ticket ≠ e.ticket) (low : 1 ≤ e.ticket) (high : e.ticket ≤ Config.ticketMax) :
    (q.insert n e).Ordered := by
  obtain ⟨tail, nodup, range, counter⟩ := ordered
  have perm := q.insert_perm n e
  refine ⟨?_, ?_, ?_, counter⟩
  · simp only [RequestQueue.insert, RequestQueue.head?] at behind ⊢
    cases entries : q.entries with
    | nil => simp
    | cons x xs =>
      rw [entries] at tail behind
      cases n with
      | zero =>
        have first : x.state = .queued := by
          simp only [List.head?_cons, Option.any_some, Entry.active, decide_eq_true_eq] at behind
          exact by_contra fun h => absurd (behind h) (by omega)
        simpa [first] using tail
      | succ n =>
        intro y later
        simp only [List.take_succ_cons, List.cons_append, List.tail_cons, List.drop_succ_cons, List.mem_append,
          List.mem_cons] at later
        rcases later with before | rfl | after
        · exact tail y (List.mem_of_mem_take before)
        · exact queued
        · exact tail y (List.mem_of_mem_drop after)
  · rw [(perm.map _).nodup_iff]
    refine List.nodup_cons.2 ⟨fun taken => ?_, nodup⟩
    obtain ⟨x, member, same⟩ := List.mem_map.1 taken
    exact own x member same
  · intro x member
    rcases List.mem_cons.1 (perm.subset member) with rfl | old
    · exact ⟨low, high⟩
    · exact range x old

theorem RequestQueue.PresetsInRange.insert {q : RequestQueue} (presets : q.PresetsInRange) {n : Nat} {e : Entry}
    (preset : e.preset.all (fun p => -6 ≤ p && p ≤ 6) = true) : (q.insert n e).PresetsInRange := by
  intro x member
  rcases List.mem_cons.1 ((q.insert_perm n e).subset member) with rfl | old
  · exact preset
  · exact presets x old

/-- A QUEUED entry moved no further forward than behind an active head (R154). -/
theorem Room.keeps_moveTo {rm : Room} {e : Entry} (member : e ∈ rm.queue.entries) (queued : e.state = .queued)
    {position : Nat} (lowest : rm.queue.lowest ≤ position) :
    rm.Keeps { rm with queue := rm.queue.moveTo e position } := by
  have entries : (rm.queue.moveTo e position).entries = ((rm.queue.remove e).insert (position - 1) e).entries := rfl
  have heads (st : EntryState) :
      (rm.queue.moveTo e position).headIs st = ((rm.queue.remove e).insert (position - 1) e).headIs st := rfl
  have shorter : (rm.queue.remove e).entries.length < rm.queue.entries.length :=
    List.length_filter_lt_length_iff_exists.2 ⟨e, member, by simp⟩
  refine Room.keeps_queue ?_ (fun presets => ?_) fun ordered agree => ?_
  · rw [entries, RequestQueue.length_insert]
    exact shorter
  · exact (presets.without e).insert (q := rm.queue.remove e) (presets e member)
  · have behind : (rm.queue.remove e).head?.any Entry.active = true → 1 ≤ position - 1 := by
      intro active
      obtain ⟨x, first, past⟩ := Option.any_eq_true _ _ |>.1 active
      have past : x.state ≠ .queued := by simpa [Entry.active] using past
      obtain ⟨y, head, same⟩ := RequestQueue.headIs_iff.1
        ((RequestQueue.headIs_remove ordered member queued past).symm.trans (RequestQueue.headIs_iff.2 ⟨x, first, rfl⟩))
      have two : rm.queue.lowest = 2 := by simp [RequestQueue.lowest, head, Entry.active, same, past]
      omega
    obtain ⟨low, high⟩ := ordered.2.2.1 e member
    have inserted := (ordered.without e).insert (q := rm.queue.remove e) queued behind
      (fun x kept => by simpa using List.of_mem_filter kept) low high
    refine ⟨inserted, Room.headAgrees_of_same agree (fun st active => ?_) rfl⟩
    rw [heads, RequestQueue.headIs_insert queued behind active, RequestQueue.headIs_remove ordered member queued active]

/-! ## Tickets (R148) -/

theorem nextTicket_bounds (t : Nat) : 1 ≤ nextTicket t ∧ nextTicket t ≤ Config.ticketMax := by
  have := Nat.mod_lt t (show 0 < Config.ticketMax by decide)
  unfold nextTicket
  omega

theorem RequestQueue.find?_isSome {q : RequestQueue} {t : Nat} :
    (q.find? t).isSome = true ↔ t ∈ q.entries.map (·.ticket) := by
  simp [RequestQueue.find?, List.find?_isSome]

/-- The ticket that so many steps of the ticket counter lead to. -/
def ticketAfter (t : Nat) : Nat → Nat
  | 0 => t
  | k + 1 => ticketAfter (nextTicket t) k

/-- The ticket found is the first one on the way that no entry holds. -/
theorem RequestQueue.freeTicket_of_first {q : RequestQueue} {tries t k : Nat} (within : k ≤ tries)
    (held : ∀ j < k, (q.find? (ticketAfter t j)).isSome = true) (free : (q.find? (ticketAfter t k)).isSome = false) :
    q.freeTicket tries t = ticketAfter t k := by
  induction tries generalizing t k with
  | zero => obtain rfl := Nat.le_zero.1 within; rfl
  | succ tries ih =>
    cases k with
    | zero =>
      have free : (q.find? t).isSome = false := free
      rw [RequestQueue.freeTicket, if_neg (by simp [free])]
      rfl
    | succ k =>
      have first := held 0 (Nat.succ_pos k)
      simp only [ticketAfter] at first free
      rw [RequestQueue.freeTicket, if_pos first]
      exact ih (Nat.le_of_succ_le_succ within) (fun j less => held (j + 1) (Nat.succ_lt_succ less)) free

theorem ticketAfter_eq {t : Nat} (low : 1 ≤ t) (high : t ≤ Config.ticketMax) (k : Nat) :
    ticketAfter t k = (t - 1 + k) % Config.ticketMax + 1 := by
  induction k generalizing t with
  | zero =>
    have := Nat.mod_eq_of_lt (show t - 1 < Config.ticketMax by omega)
    simp only [ticketAfter, Nat.add_zero]
    omega
  | succ k ih =>
    obtain ⟨low', high'⟩ := nextTicket_bounds t
    rw [ticketAfter, ih low' high']
    simp only [nextTicket, Nat.add_sub_cancel, Nat.mod_add_mod]
    congr 2
    omega

/-- A queue that does not hold every ticket has one free on the way from a ticket on (R148). -/
theorem RequestQueue.exists_free {q : RequestQueue} (few : q.entries.length < Config.ticketMax) {t : Nat} (low : 1 ≤ t)
    (high : t ≤ Config.ticketMax) :
    ∃ k < Config.ticketMax, (∀ j < k, (q.find? (ticketAfter t j)).isSome = true) ∧
      (q.find? (ticketAfter t k)).isSome = false := by
  have some : ∃ k, k < Config.ticketMax ∧ (q.find? (ticketAfter t k)).isSome = false := by
    by_contra none
    push Not at none
    have all : (Finset.range Config.ticketMax).image (ticketAfter t) ⊆ (q.entries.map (·.ticket)).toFinset := by
      intro x member
      obtain ⟨k, bound, rfl⟩ := Finset.mem_image.1 member
      exact List.mem_toFinset.2 (RequestQueue.find?_isSome.1 (Bool.not_eq_false _ ▸ none k (Finset.mem_range.1 bound)))
    have different : Set.InjOn (ticketAfter t) (Finset.range Config.ticketMax) := by
      intro j hj k hk same
      simp only [ticketAfter_eq low high, Finset.coe_range, Set.mem_Iio, Config.ticketMax] at hj hk same
      omega
    have count := (Finset.card_le_card all).trans (List.toFinset_card_le _)
    rw [Finset.card_image_of_injOn different, Finset.card_range, List.length_map] at count
    omega
  classical
  obtain ⟨bound, free⟩ := Nat.find_spec some
  exact ⟨Nat.find some, bound,
    fun j less => Bool.not_eq_false _ ▸ not_and.1 (Nat.find_min some less) (less.trans bound), free⟩

/-- The ticket that the room's next entry takes is no other entry's (R148). -/
theorem RequestQueue.ticketToGive_free {q : RequestQueue} (few : q.entries.length < Config.ticketMax)
    (low : 1 ≤ q.counter) (high : q.counter ≤ Config.ticketMax) :
    (∀ x ∈ q.entries, x.ticket ≠ q.ticketToGive) ∧ 1 ≤ q.ticketToGive ∧ q.ticketToGive ≤ Config.ticketMax := by
  obtain ⟨k, bound, held, free⟩ := RequestQueue.exists_free few low high
  rw [RequestQueue.ticketToGive, RequestQueue.freeTicket_of_first bound.le held free]
  refine ⟨fun x member same => ?_, ?_⟩
  · have : (q.find? (ticketAfter q.counter k)).isSome = true :=
      RequestQueue.find?_isSome.2 (List.mem_map.2 ⟨x, member, same⟩)
    simp [this] at free
  · have := Nat.mod_lt (q.counter - 1 + k) (show 0 < Config.ticketMax by decide)
    rw [ticketAfter_eq low high]
    omega

end Sys2Proof.Machine
end

section
/-! SUPPORT. What the operations of the part keep, those aside that answer on the link, let something in or start anew:
every room keeps to `Room.Keeps`, the link's queues keep their bounds, the engine goes on with the analysis it had, and
no message to the queue manager is added. -/

namespace Sys2Proof.Machine

/-- A REQUEST or a CANCEL on its way to the queue manager (R140). -/
def HandOver.isMessage : HandOver → Bool
  | .request _ => true
  | .cancel _ => true
  | _ => false

/-- The engine serves the same channel on the same window, or stays IDLE. -/
structure Engine.Alike (a b : Engine) : Prop where
  served : b.lastServed = a.lastServed
  current : b.current.map (fun x => (x.channel, x.window)) = a.current.map fun x => (x.channel, x.window)

theorem Engine.alike_voided (e : Engine) (r : RoomId) : e.Alike (e.voided r) := by
  refine ⟨rfl, ?_⟩
  simp only [Engine.voided, Option.map_map]
  congr 1
  funext a
  simp only [Function.comp]
  split <;> rfl

/-- The results and the reset line stand as they did, and the queues keep their bounds and order. -/
structure Link.Follows (a b : Link) : Prop where
  queues : a.QueuesAgree → b.QueuesAgree
  results : b.results = a.results
  line : b.resetLine = a.resetLine

theorem Link.Follows.trans {a b c : Link} (ab : a.Follows b) (bc : b.Follows c) : a.Follows c :=
  ⟨bc.queues ∘ ab.queues, bc.results.trans ab.results, bc.line.trans ab.line⟩

theorem Link.follows_hear (l : Link) (m : NoticeMask) (r : RoomId) {k : NoticeKind} (kind : k ≠ .ready) :
    l.Follows (l.hear m r k) := ⟨Link.hear_queuesAgree m r kind, by simp, by simp⟩

/-- What an operation keeps of the part; where it leaves an item alone, that part of it is given. -/
structure State.Evolves (s t : State) : Prop where
  rooms : ∀ r, (s.room r).Keeps (t.room r) := by exact fun _ => .refl _
  engine : s.engine.Alike t.engine := by exact ⟨rfl, rfl⟩
  messages : ∀ h ∈ t.handed, h.isMessage = true → h ∈ s.handed := by exact fun _ member _ => member
  glyphs : t.glyphs = s.glyphs := by exact rfl
  link : s.link.Follows t.link := by exact ⟨id, rfl, rfl⟩

theorem State.Evolves.refl (s : State) : s.Evolves s := {}

theorem State.Evolves.trans {s t u : State} (st : s.Evolves t) (tu : t.Evolves u) : s.Evolves u where
  rooms r := (st.rooms r).trans (tu.rooms r)
  engine := ⟨tu.engine.served.trans st.engine.served, tu.engine.current.trans st.engine.current⟩
  messages h member message := st.messages h (tu.messages h member message) message
  glyphs := tu.glyphs.trans st.glyphs
  link := st.link.trans tu.link

theorem State.Evolves.ite {s t u : State} {c : Prop} [Decidable c] (pos : c → s.Evolves t) (neg : ¬c → s.Evolves u) :
    s.Evolves (if c then t else u) := by
  split
  next is => exact pos is
  next other => exact neg other

variable (s : State) (r : RoomId)

/-! ## Single steps -/

theorem State.evolves_setRoom {s : State} {r : RoomId} {x : Room} (keeps : (s.room r).Keeps x) :
    s.Evolves (s.setRoom r x) := by
  refine { rooms := fun q => ?_ }
  by_cases same : q = r
  · subst same; simpa using keeps
  · rw [State.room_setRoom_of_ne _ same]; exact .refl _

theorem State.evolves_modRoom {s : State} {r : RoomId} {f : Room → Room} (keeps : (s.room r).Keeps (f (s.room r))) :
    s.Evolves (s.modRoom r f) := State.evolves_setRoom keeps

theorem State.evolves_link {l : Link} (follows : s.link.Follows l) : s.Evolves { s with link := l } := { link := follows }

theorem State.evolves_voided : s.Evolves { s with engine := s.engine.voided r } := { engine := s.engine.alike_voided r }

theorem State.evolves_raise {k : NoticeKind} (kind : k ≠ .ready) : s.Evolves (s.raise r k) := by
  rw [State.raise_eq_hear]
  exact s.evolves_link (s.link.follows_hear _ r kind)

theorem State.evolves_hand {h : HandOver} (other : h.isMessage = false) : s.Evolves (s.hand h) := by
  refine { messages := fun x member message => ?_ }
  rcases List.mem_append.1 member with old | new
  · exact old
  · rw [List.mem_singleton.1 new, other] at message
    exact absurd message (by simp)

/-- Some of what was handed on has been taken or taken back. -/
theorem State.evolves_handed {rest : List HandOver} (fewer : ∀ h ∈ rest, h ∈ s.handed) :
    s.Evolves { s with handed := rest } := { messages := fun h member _ => fewer h member }

theorem State.evolves_dropHanded (which : HandOver → Bool) : s.Evolves (s.dropHanded which) :=
  s.evolves_handed fun _ member => List.mem_of_mem_filter member

theorem State.evolves_modLine {f : RequestLine → RequestLine} (told : (s.room r).line.Told (f (s.room r).line)) :
    s.Evolves (s.modLine r f) := State.evolves_modRoom (Room.keeps_line told)

theorem State.evolves_placeNews (h : HandsetId) (k : NewsKind) (t : Nat) : s.Evolves (s.placeNews r h k t) :=
  State.evolves_modRoom (Room.keeps_line (RequestLine.told_placeNews ..))

theorem State.evolves_clearRings : s.Evolves (s.clearRings r) := by
  rw [State.clearRings_eq]
  exact (State.evolves_modRoom (Room.keeps_hushed _)).trans (State.evolves_voided _ r)

/-- A room set anew with what its owner hears of it, a running analysis of it made void or not. -/
theorem State.evolves_passage {s : State} {r : RoomId} {x : Room} {l : Link} (keeps : (s.room r).Keeps x)
    (follows : s.link.Follows l) : s.Evolves { s.setRoom r x with link := l } :=
  (State.evolves_setRoom keeps).trans (State.evolves_link _ follows)

theorem State.evolves_voidedPassage {s : State} {r : RoomId} {x : Room} {l : Link} (keeps : (s.room r).Keeps x)
    (follows : s.link.Follows l) : s.Evolves { s.setRoom r x with engine := s.engine.voided r, link := l } :=
  (s.evolves_voided r).trans (State.evolves_passage (s := { s with engine := s.engine.voided r }) keeps follows)

/-! ## Offers and queue changes (R151, R156, R157) -/

theorem State.evolves_makeOffer {s : State} {r : RoomId} {e : Entry} (attract : (s.room r).phase = .attract)
    (head : (s.room r).queue.head? = some e) : s.Evolves (s.makeOffer r e) :=
  ((State.evolves_modRoom (Room.keeps_offered attract head _)).trans (State.evolves_placeNews ..)).trans
    (State.evolves_raise _ r (by decide))

theorem State.evolves_offerTrigger : s.Evolves (s.offerTrigger r) := by
  unfold State.offerTrigger
  refine .ite (fun ⟨attract, _⟩ => ?_) fun _ => .refl s
  split
  next e head => exact .ite (fun _ => State.evolves_makeOffer attract head) fun _ => .refl s
  next => exact .refl s

theorem State.evolves_noteQueueChange : s.Evolves (s.noteQueueChange r) :=
  (s.evolves_raise r (by decide)).trans (State.evolves_modRoom (Room.keeps_suspended _ _))

theorem State.evolves_queueChange : s.Evolves (s.queueChange r) :=
  (s.evolves_noteQueueChange r).trans (State.evolves_offerTrigger _ r)

theorem State.evolves_offerExpiry : s.Evolves (s.offerExpiry r) := by
  unfold State.offerExpiry
  split
  next => exact .refl s
  next => exact .refl s
  next =>
    split
    next e head =>
      refine .ite (fun offered => ?_) fun other => ?_
      · exact (State.evolves_modRoom (Room.keeps_lapse head offered)).trans (State.evolves_raise _ r (by decide))
      · exact State.evolves_modRoom (Room.keeps_stopOffer (by simp [RequestQueue.headIs, head, other]))
    next head => exact State.evolves_modRoom (Room.keeps_stopOffer (by simp [RequestQueue.headIs, head]))

theorem State.evolves_offerPoll : s.Evolves (s.offerPoll r).1 := by
  unfold State.offerPoll
  have polled : s.Evolves (s.modRoom r fun rm => { rm with queue := { rm.queue with suspended := false } }) :=
    State.evolves_modRoom (Room.keeps_suspended _ _)
  dsimp only
  split
  · exact polled.trans (State.evolves_raise _ r (by decide))
  · exact polled.trans (State.evolves_offerTrigger _ r)

/-! ## Song time, the knob and the lyrics (R23 to R37, R52) -/

theorem State.evolves_handClock : s.Evolves (s.handClock r) :=
  (s.evolves_hand rfl).trans (State.evolves_hand _ rfl)

theorem State.evolves_handClockChange (jump : Bool) : s.Evolves (s.handClockChange r jump) :=
  (s.evolves_handClock r).trans (State.evolves_hand _ rfl)

theorem State.evolves_tick (a b : Bool) : s.Evolves (s.tick r a b) := by
  have sampled (t : State) : t.Evolves (t.sampleKnob r a b) := by
    have filtered : t.Evolves (t.modRoom r fun rm => { rm with timeline := rm.timeline.sampleKnob a b }) :=
      State.evolves_modRoom (Room.keeps_sampleKnob _ a b)
    unfold State.sampleKnob
    dsimp only
    split
    · exact filtered.trans (State.evolves_hand _ rfl)
    · exact filtered
  have advanced (t : State) : t.Evolves (t.advance r) := by
    unfold State.advance
    refine .ite (fun playing => ?_) fun _ => .refl t
    have moved : t.Evolves (t.modRoom r fun rm => { rm with timeline := rm.timeline.advance }) :=
      State.evolves_modRoom (Room.keeps_advance playing)
    exact .ite (fun _ => moved) fun _ => moved.trans (State.evolves_handClockChange _ r _)
  exact ((State.evolves_modRoom (Room.keeps_elapse _)).trans (sampled _)).trans (advanced _)

theorem State.evolves_takeDetent (clockwise : Bool) : s.Evolves (s.takeDetent r clockwise) := by
  unfold State.takeDetent
  refine .ite (fun moves => ?_) fun _ => .refl s
  exact (State.evolves_modRoom (Room.keeps_detent moves)).trans (State.evolves_raise _ r (by decide))

theorem State.evolves_evaluate : s.Evolves (s.evaluate r) := by
  have evaluated : s.Evolves (s.modRoom r fun rm =>
      { rm with lyrics := rm.lyrics.evaluate rm.timeline.clock rm.settings.preroll rm.settings.linger }) :=
    State.evolves_modRoom (Room.keeps_lyrics (Lyrics.evaluate_reduces ..))
  unfold State.evaluate
  exact .ite (fun _ => evaluated.trans (State.evolves_raise _ r (by decide))) fun _ => evaluated

/-! ## Holds, the song's end and its abort (R8 to R14) -/

theorem State.evolves_hold {s : State} {r : RoomId} {why : PauseReasons} (playing : (s.room r).phase = .playing)
    (some : why ≠ .empty) : s.Evolves (s.hold r why) :=
  ((State.evolves_modRoom (Room.keeps_hold playing some)).trans (State.evolves_clearRings _ r)).trans
    (State.evolves_raise _ r (by decide))

theorem State.evolves_removeReason {s : State} {r : RoomId} (paused : (s.room r).phase = .paused) (left : PauseReasons) :
    s.Evolves (s.removeReason r left) := by
  unfold State.removeReason
  refine .ite (fun _ => ?_) fun some => State.evolves_modRoom (Room.keeps_reasons paused some)
  exact (State.evolves_modRoom (Room.keeps_release paused)).trans (State.evolves_raise _ r (by decide))

/-- Without a head no song can be open. -/
theorem Room.not_agrees_of_no_head {rm : Room} (none : rm.queue.head? = none) (opened : rm.phase.songOpen = true) :
    ¬rm.Agrees := by
  rintro ⟨-, -, -, ⟨cueing, singing, -, -⟩, -⟩
  have no (st : EntryState) : rm.queue.headIs st = false := by simp [RequestQueue.headIs, none]
  cases phase : rm.phase <;> simp [phase, no, Phase.songOpen] at cueing singing opened

/-- What is heard of a song that is over (R11, R13, R14). -/
theorem Link.follows_songOver (l : Link) (m : NoticeMask) {k : NoticeKind} (kind : k ≠ .ready) :
    l.Follows ((l.hear m r .queueChanged).hear m r k) :=
  (l.follows_hear m r (by decide)).trans (Link.follows_hear _ m r kind)

theorem Room.makeResult_of_no_head {rm : Room} (none : rm.queue.head? = none) (o : SongOutcome) : rm.makeResult o = rm := by
  simp only [Room.makeResult, none]

theorem State.retireHead_of_no_head {s : State} {r : RoomId} (none : (s.room r).queue.head? = none) (news : Bool) :
    s.retireHead r news = s := by
  simp only [State.retireHead, none]

theorem State.evolves_endSong {s : State} {r : RoomId} (running : (s.room r).phase = .playing ∨ (s.room r).phase = .paused) :
    s.Evolves (s.endSong r) := by
  cases head : (s.room r).queue.head? with
  | some e =>
    rw [State.endSong_eq head]
    exact State.evolves_voidedPassage (Room.keeps_songEnded head fun _ => running) (s.link.follows_songOver r _ (by decide))
  | none =>
    have never := Room.not_agrees_of_no_head head (by rcases running with is | is <;> simp [is, Phase.songOpen])
    have passed : s.Evolves (s.modRoom r fun rm => (rm.makeResult .complete).toResult) := by
      refine State.evolves_modRoom ?_
      rw [Room.makeResult_of_no_head head]
      exact Room.keeps_passed never rfl
    unfold State.endSong
    dsimp only
    rw [State.retireHead_of_no_head (by simp [Room.makeResult_of_no_head head, Room.toResult, Room.hushed, head])]
    exact (passed.trans (State.evolves_clearRings _ r)).trans (State.evolves_raise _ r (by decide))

end Sys2Proof.Machine
end

section
/-! SUPPORT. What the events and the commands of a room keep of the part (R4 to R17, R26 to R37, R52, R66, R68, R82,
R116, R118, R151 to R161). -/

namespace Sys2Proof.Machine

variable (s : State) (r : RoomId)

/-! ## Aborts and expiries (R8, R12 to R15) -/

theorem Room.keeps_clearSong (rm : Room) : rm.Keeps rm.clearSong :=
  (Room.keeps_lyrics rm.lyrics.clear_reduces).trans (Room.keeps_melody (Nat.zero_le _))

theorem State.evolves_abort {s : State} {r : RoomId} (opened : (s.room r).Agrees → (s.room r).phase.songOpen = true)
    (news : Bool) : s.Evolves (s.abort r news) := by
  cases head : (s.room r).queue.head? with
  | some e =>
    rw [State.abort_eq head]
    have aborted : (s.room r).Keeps ((s.room r).hushed.songAborted e ((s.room r).queue.without e)
        ((s.room r).line.tellIf news e)) :=
      (Room.keeps_hushed _).trans
        (Room.keeps_songAborted (rm := (s.room r).hushed) head (RequestLine.told_tellIf _ news e) opened)
    exact (State.evolves_voidedPassage aborted (s.link.follows_songOver r _ (by decide))).trans
      (State.evolves_offerTrigger _ r)
  | none =>
    have never : ¬(s.room r).Agrees := fun agree => Room.not_agrees_of_no_head head (opened agree) agree
    have passed : s.Evolves (s.modRoom r fun rm => (rm.makeResult .aborted).toAttract) := by
      refine State.evolves_modRoom ?_
      rw [Room.makeResult_of_no_head head]
      exact Room.keeps_passed never rfl
    unfold State.abort
    dsimp only
    rw [State.retireHead_of_no_head (by simp [Room.makeResult_of_no_head head, Room.toAttract, head])]
    exact (((passed.trans (State.evolves_raise _ r (by decide))).trans
      (State.evolves_modRoom (Room.keeps_clearSong _))).trans (State.evolves_clearRings _ r)).trans
        (State.evolves_offerTrigger _ r)

theorem State.evolves_markExpiry : s.Evolves (s.markExpiry r) := by
  have stopped : s.Evolves (s.modRoom r fun rm => { rm with markTimer := .stopped }) :=
    State.evolves_modRoom (Room.keeps_markTimer (absurd rfl))
  unfold State.markExpiry
  split
  next => exact .refl s
  next => exact .refl s
  next => exact .ite (fun playing => stopped.trans (State.evolves_hold playing (by decide))) fun _ => stopped

theorem State.evolves_cueExpiry : s.Evolves (s.cueExpiry r) := by
  have stopped : s.Evolves (s.modRoom r fun rm => { rm with cueTimer := .stopped }) :=
    State.evolves_modRoom (Room.keeps_stopCue _)
  by_cases out : (s.room r).cueTimer = .running 0
  case neg =>
    unfold State.cueExpiry
    split
    next => exact .refl s
    next => exact .refl s
    next is => exact absurd is out
  by_cases cueing : (s.room r).phase = .cueing
  case neg => simpa only [State.cueExpiry, out, State.room_modRoom_self, cueing, if_false] using stopped
  have opened : (s.room r).phase.songOpen = true := by simp [cueing, Phase.songOpen]
  cases head : (s.room r).queue.head? with
  | some e =>
    rw [State.cueExpiry_eq head out cueing]
    exact (State.evolves_passage (Room.keeps_songAborted head (RequestLine.told_tellIf _ true e) fun _ => opened)
      (s.link.follows_songOver r _ (by decide))).trans (State.evolves_offerTrigger _ r)
  | none =>
    have passed : s.Evolves ((s.modRoom r fun rm => { rm with cueTimer := .stopped }).modRoom r
        fun rm => (rm.makeResult .aborted).toAttract) := by
      rw [State.modRoom_modRoom]
      refine State.evolves_setRoom ?_
      rw [Room.makeResult_of_no_head (rm := { s.room r with cueTimer := .stopped }) head]
      exact Room.keeps_passed (Room.not_agrees_of_no_head head opened) rfl
    have kept : (((s.modRoom r fun rm => { rm with cueTimer := .stopped }).modRoom r
        fun rm => (rm.makeResult .aborted).toAttract).room r).queue.head? = .none := by
      simp [State.modRoom_modRoom, Room.makeResult, Room.toAttract, head]
    simp only [State.cueExpiry, out, State.room_modRoom_self, cueing, if_true, State.retireHead_of_no_head kept]
    exact ((passed.trans (State.evolves_raise _ r (by decide))).trans
      (State.evolves_modRoom (Room.keeps_clearSong _))).trans (State.evolves_offerTrigger _ r)

theorem State.evolves_holdExpiry : s.Evolves (s.holdExpiry r) := by
  unfold State.holdExpiry
  split
  next => exact .refl s
  next => exact .refl s
  next =>
    simp only [State.room_modRoom_self, State.modRoom_modRoom]
    refine .ite (fun result => ?_) fun _ => State.evolves_modRoom (Room.keeps_stopHold _)
    exact (State.evolves_setRoom ((Room.keeps_resultOver result).trans (Room.keeps_clearSong _))).trans
      (State.evolves_offerTrigger _ r)

theorem State.evolves_staleExpiry : s.Evolves (s.staleExpiry r) := by
  unfold State.staleExpiry
  split
  next => exact (State.evolves_modRoom (Room.keeps_stale fun _ => rfl)).trans (State.evolves_raise _ r (by decide))
  all_goals exact .refl s

/-! ## Clock changes and time marks (R11, R28 to R31, R52, R116) -/

theorem State.evolves_testGuard (clock : Nat) : s.Evolves (s.testGuard r clock) := by
  unfold State.testGuard
  split
  next playing _ => exact .ite (fun _ => State.evolves_endSong (.inl playing)) fun _ => .refl s
  next paused _ => exact .ite (fun _ => State.evolves_endSong (.inr paused)) fun _ => .refl s
  next => exact .refl s

theorem State.evolves_evaluationTaken (jump : Bool) : s.Evolves (s.evaluationTaken r jump) :=
  .ite (fun _ => s.evolves_evaluate r) fun _ => .refl s

theorem State.evolves_resultTaken (x : AnalysisResult) : s.Evolves (s.resultTaken x) :=
  .ite (fun _ => State.evolves_modRoom (Room.keeps_takeResult _ _ x)) fun _ => .refl s

theorem State.evolves_readJump : s.Evolves (s.readJump r) :=
  ((s.evolves_evaluate r).trans (State.evolves_modRoom (Room.keeps_passNotes _ _))).trans (State.evolves_testGuard _ r _)

theorem State.evolves_removeStall : s.Evolves (s.removeStall r) :=
  .ite (fun ⟨paused, _⟩ => State.evolves_removeReason paused _) fun _ => .refl s

theorem State.evolves_timeMark (p : Nat) : s.Evolves (s.timeMark r p) := by
  unfold State.timeMark
  split
  next playing =>
    unfold State.markPlaying
    have marked : s.Evolves (s.modRoom r fun rm =>
        { rm with timeline := rm.timeline.mark p, markTimer := .running rm.settings.markTimeout }) :=
      State.evolves_modRoom ((Room.keeps_timelineMark (.inl playing) p).trans (Room.keeps_markTimer fun _ => playing))
    exact .ite (fun _ => marked.trans (State.evolves_handClockChange _ r true)) fun _ => marked
  next paused =>
    unfold State.markPaused
    have marked : s.Evolves (s.modRoom r fun rm => { rm with timeline := rm.timeline.mark p }) :=
      State.evolves_modRoom (Room.keeps_timelineMark (.inr paused) p)
    refine State.Evolves.trans ?_ (State.evolves_removeStall _ r)
    exact .ite (fun _ => marked.trans (State.evolves_readJump _ r)) fun _ => marked
  all_goals exact .refl s

/-! ## Opening and closing a room, and its settings (R4, R5, R17, R66, R68, R172) -/

theorem State.evolves_roomOpen : s.Evolves (s.roomOpen r).1 := by
  unfold State.roomOpen
  split
  next dark =>
    exact ((State.evolves_modRoom (Room.keeps_opened dark)).trans (State.evolves_dropHanded _ _)).trans
      (State.evolves_offerTrigger _ r)
  next => exact .refl s

theorem Link.follows_hearClose (l : Link) (rm : Room) : l.Follows (l.hearClose rm r) := by
  unfold Link.hearClose
  split
  · exact ⟨id, rfl, rfl⟩
  · exact l.follows_hear _ r (by decide)

theorem State.evolves_closeRoom : s.Evolves (s.closeRoom r) := by
  rw [State.closeRoom_eq]
  have closed := Room.keeps_closed (rm := s.room r) (s.cutDisplay r)
    (RequestLine.told_tellAll (s.room r).line (s.room r).queue.entries)
  have passed := State.evolves_voidedPassage closed (s.link.follows_hearClose r (s.room r))
  exact ⟨passed.rooms, passed.engine, fun h member _ => List.mem_of_mem_filter member, rfl, passed.link⟩

theorem State.evolves_roomSettings (args : List Byte) : s.Evolves (s.roomSettings r args).1 := by
  unfold State.roomSettings
  split
  next => exact .refl s
  next =>
    dsimp only
    refine State.evolves_modRoom ?_
    exact Room.keeps_settings (Settings.clamped_inRange _ _)

theorem State.evolves_noticeMask (args : List Byte) : s.Evolves (s.noticeMask r args).1 := by
  unfold State.noticeMask
  split
  next => exact .refl s
  next =>
    dsimp only
    refine State.evolves_modRoom ?_
    exact Room.keeps_mask _ _

theorem State.evolves_bandTable (args : List Byte) : s.Evolves (s.bandTable r args).1 := by
  unfold State.bandTable
  split
  next => exact .refl s
  next =>
    dsimp only
    refine State.evolves_modRoom ?_
    exact Room.keeps_compositor _ _

theorem State.evolves_palette (args : List Byte) : s.Evolves (s.palette r args).1 := by
  unfold State.palette
  split
  next => exact .refl s
  next =>
    dsimp only
    refine State.evolves_modRoom ?_
    exact Room.keeps_compositor _ _

/-! ## The song's commands (R7, R9 to R13, R27, R159, R161) -/

theorem State.evolves_songOpen (ticket length tempo : Nat) : s.Evolves (s.songOpen r ticket length tempo).1 := by
  unfold State.songOpen
  dsimp only
  split
  next => exact .refl s
  split
  next => exact .refl s
  next some =>
  split
  next => exact .refl s
  next attract =>
  split
  next => exact .refl s
  next e opens =>
    have head : (s.room r).queue.head? = .some e := by
      simp only [RequestQueue.opens] at opens
      split at opens
      next x first =>
        split at opens
        · rwa [← Option.some.inj opens]
        · cases opens
      next => cases opens
    refine State.Evolves.trans (State.evolves_modRoom (Room.keeps_openSong (not_not.1 attract) head ?_ ?_ ?_))
      (State.evolves_dropHanded _ _)
    · have : 1 ≤ Config.songLengthMax := by decide
      omega
    · exact min_le_right ..
    · intro range
      unfold Room.openTempo
      split
      · exact Settings.InRange.defaultTempo range
      · exact clampNat_bounds (by decide) tempo

theorem State.evolves_nowPlaying : s.Evolves (s.nowPlaying r) := by
  unfold State.nowPlaying
  split
  next => exact State.evolves_placeNews ..
  next => exact .refl s

theorem State.evolves_songStart (position : Nat) : s.Evolves (s.songStart r position).1 := by
  unfold State.songStart
  split
  next cueing =>
    have started : (s.room r).Keeps
        ((s.room r).startSong (min position ((s.room r).timeline.songLength.getD position))) := by
      refine Room.keeps_startSong cueing fun l length => ?_
      rw [Option.mem_def.1 length]
      exact min_le_right ..
    exact ((((State.evolves_modRoom started).trans (State.evolves_nowPlaying _ r)).trans
      (State.evolves_raise _ r (by decide))).trans (State.evolves_evaluate _ r)).trans (State.evolves_handClock _ r)
  next => exact .refl s

theorem State.evolves_songEnd : s.Evolves (s.songEnd r).1 := by
  unfold State.songEnd
  split
  next playing => exact State.evolves_endSong (.inl playing)
  next paused => exact State.evolves_endSong (.inr paused)
  all_goals exact .refl s

theorem PauseReasons.with_staff (p : PauseReasons) : { p with staff := true } ≠ PauseReasons.empty := by
  simp [PauseReasons.empty]

theorem State.evolves_pauseSong : s.Evolves (s.pauseSong r).1 := by
  unfold State.pauseSong
  split
  next playing => exact State.evolves_hold playing (by decide)
  next paused =>
    dsimp only
    refine State.evolves_modRoom ?_
    exact Room.keeps_reasons paused (PauseReasons.with_staff _)
  all_goals exact .refl s

theorem State.evolves_resumeSong : s.Evolves (s.resumeSong r).1 := by
  unfold State.resumeSong
  split
  next => exact .refl s
  next paused => exact .ite (fun _ => State.evolves_removeReason paused _) fun _ => .refl s
  all_goals exact .refl s

theorem State.evolves_skipSong : s.Evolves (s.skipSong r).1 := by
  unfold State.skipSong
  split
  next opened => exact State.evolves_abort (fun _ => opened) false
  next => exact .refl s

theorem State.evolves_setTempo (tempo : Nat) : s.Evolves (s.setTempo r tempo).1 := by
  unfold State.setTempo
  split
  next =>
    dsimp only
    refine State.evolves_modRoom ?_
    exact Room.keeps_tempo tempo
  next => exact .refl s

/-! ## The queue's commands (R152 to R154, R161) -/

theorem RequestQueue.mem_of_find? {q : RequestQueue} {ticket : Nat} {e : Entry} (found : q.find? ticket = some e) :
    e ∈ q.entries := List.mem_of_find?_eq_some found

/-- A song is open while an entry is LOADING or PLAYING. -/
theorem Room.Agrees.songOpen {rm : Room} (agree : rm.Agrees) {e : Entry} (member : e ∈ rm.queue.entries)
    (active : e.state = .loading ∨ e.state = .playing) : rm.phase.songOpen = true := by
  obtain ⟨-, -, ordered, ⟨cueing, singing, -, -⟩, -⟩ := agree
  have head := ordered.head_of_active member (by rcases active with is | is <;> simp [is])
  rcases active with is | is
  · simp [cueing.2 (RequestQueue.headIs_iff.2 ⟨e, head, is⟩), Phase.songOpen]
  · rcases singing.2 (RequestQueue.headIs_iff.2 ⟨e, head, is⟩) with phase | phase <;> simp [phase, Phase.songOpen]

theorem State.evolves_removeEntry {s : State} {r : RoomId} {e : Entry} (member : e ∈ (s.room r).queue.entries)
    (waiting : e.state = .queued ∨ e.state = .offered) : s.Evolves (s.removeEntry r e) :=
  State.evolves_modRoom (Room.keeps_remove member waiting)

theorem State.evolves_cancelEntry {s : State} {r : RoomId} {e : Entry} (member : e ∈ (s.room r).queue.entries)
    (news : Bool) : s.Evolves (s.cancelEntry r e news) := by
  have removed (waiting : e.state = .queued ∨ e.state = .offered) :
      s.Evolves ((if news then (s.removeEntry r e).placeNews r e.owner .cancelled e.ticket else s.removeEntry r e).queueChange
        r) := by
    refine State.Evolves.trans ?_ (State.evolves_queueChange _ r)
    have left := State.evolves_removeEntry member waiting
    exact .ite (fun _ => left.trans (State.evolves_placeNews ..)) fun _ => left
  unfold State.cancelEntry
  split
  next loading => exact State.evolves_abort (fun agree => agree.songOpen member (.inl loading)) news
  next playing => exact State.evolves_abort (fun agree => agree.songOpen member (.inr playing)) news
  next queued => exact removed (.inl queued)
  next offered => exact removed (.inr offered)

theorem State.evolves_queueRemove (ticket : Nat) : s.Evolves (s.queueRemove r ticket).1 := by
  unfold State.queueRemove
  split
  next => exact .refl s
  next e found => exact State.evolves_cancelEntry (RequestQueue.mem_of_find? found) true

theorem State.evolves_takeCancel (x : HandedCancel) : s.Evolves (s.takeCancel x).1 := by
  unfold State.takeCancel
  split
  next => exact .refl s
  next e found =>
    split
    · exact .refl s
    · exact State.evolves_cancelEntry (RequestQueue.mem_of_find? found) _

theorem State.evolves_songRefuse (ticket : Nat) : s.Evolves (s.songRefuse r ticket).1 := by
  unfold State.songRefuse
  split
  next e head =>
    split
    next waiting =>
      exact ((State.evolves_removeEntry (List.mem_of_head? head) waiting.2).trans (State.evolves_placeNews ..)).trans
        (State.evolves_queueChange _ r)
    next => exact .refl s
  next => exact .refl s

theorem State.evolves_queueMove (ticket target : Nat) : s.Evolves (s.queueMove r ticket target).1 := by
  unfold State.queueMove
  dsimp only
  split
  next => exact .refl s
  next e found =>
    split
    next => exact .refl s
    next queued =>
      have queued : e.state = .queued := by simpa [Entry.active] using queued
      have member := RequestQueue.mem_of_find? found
      split
      next => exact .refl s
      next =>
        have low : (s.room r).queue.lowest ≤
            clampNat (s.room r).queue.lowest (s.room r).queue.entries.length target := by
          obtain ⟨before, after, split⟩ := List.append_of_mem member
          exact (clampNat_bounds (RequestQueue.lowest_le_length split queued) target).1
        exact (State.evolves_modRoom (Room.keeps_moveTo member queued low)).trans (State.evolves_queueChange _ r)

end Sys2Proof.Machine
end

section
/-! SUPPORT. What a step keeps of the whole part: the four agreements that the steps keep, what each operation that
keeps the rooms in order gives of them, and the operations that let something in: lines, notes and entries (R46, R48,
R49, R113, R115, R147 to R150). -/

namespace Sys2Proof.Machine

/-! ## What a step keeps -/

/-- The rooms and the handset records agree (R1 to R5, R137, R140). -/
abbrev State.Agreed (s : State) : Prop := s.EveryRoom Room.Agrees ∧ s.HandsetsAgree

/-- The records, the engine, the pools and the glyph store are consistent (R40, R46, R99, R113, R147). -/
abbrev State.Recorded (s : State) : Prop :=
  s.EveryRoom Room.Recorded ∧ s.EngineAgrees ∧ s.PoolsAgree ∧ s.glyphs.Filled

/-- The presets of the requests on their way lie within their range (R141). -/
abbrev State.PresetsInRange (s : State) : Prop :=
  ∀ q, HandOver.request q ∈ s.handed → q.preset.all (fun p => -6 ≤ p && p ≤ 6) = true

/-- The rooms' values and the presets on their way lie within their ranges (R16, R22, R141). -/
abbrev State.Valued (s : State) : Prop := s.EveryRoom Room.ValuesInRange ∧ s.PresetsInRange

/-- What an event keeps of the part; the reset line stands as it did. -/
structure State.Keeps (s t : State) : Prop where
  agreed : s.Agreed → t.Agreed
  recorded : s.Recorded → t.Recorded
  valued : s.Valued → t.Valued
  queues : s.link.QueuesAgree → t.link.QueuesAgree
  line : t.link.resetLine = s.link.resetLine

theorem State.Keeps.refl (s : State) : s.Keeps s := ⟨id, id, id, id, rfl⟩

theorem State.Keeps.trans {s t u : State} (st : s.Keeps t) (tu : t.Keeps u) : s.Keeps u :=
  ⟨tu.agreed ∘ st.agreed, tu.recorded ∘ st.recorded, tu.valued ∘ st.valued, tu.queues ∘ st.queues,
    tu.line.trans st.line⟩

/-! ## Handsets (R137, R140) -/

/-- Handset records that stay in range and ONLINE, with no message on its way that is new, agree as they did. -/
theorem State.HandsetsAgree.mono {s t : State} (agree : s.HandsetsAgree)
    (inRange : ∀ r h, (s.handset r h).InRange → (t.handset r h).InRange)
    (online : ∀ r h, (s.handset r h).online = true → (t.handset r h).online = true)
    (messages : ∀ x ∈ t.handed, x.isMessage = true → x ∈ s.handed) : t.HandsetsAgree := by
  obtain ⟨ranges, awaited⟩ := agree
  refine ⟨fun r h => inRange r h (ranges r h), fun x member => ?_⟩
  cases x with
  | request q =>
    have before := awaited _ (messages _ member rfl)
    simp only [State.awaits, Bool.or_eq_true] at before ⊢
    exact before.imp_right (online _ _)
  | cancel c =>
    have before := awaited _ (messages _ member rfl)
    simp only [State.awaits, Bool.or_eq_true] at before ⊢
    exact before.imp_right (online _ _)
  | _ => rfl

/-! ## Pools (R46, R113, R147) -/

theorem State.total_le {s t : State} {f : Room → Nat} (less : ∀ r, f (t.room r) ≤ f (s.room r)) : t.total f ≤ s.total f := by
  have := less 0
  have := less 1
  have := less 2
  have := less 3
  unfold State.total
  omega

/-- A count over the rooms with one of them replaced. -/
theorem State.total_setRoom (s : State) (r : RoomId) (x : Room) (f : Room → Nat) :
    (s.setRoom r x).total f + f (s.room r) = s.total f + f x := by
  have room (q : RoomId) : (s.setRoom r x).room q = if q = r then x else s.room q := by
    split
    next same => rw [same, State.room_setRoom_self]
    next other => exact s.room_setRoom_of_ne other x
  simp only [State.total, room]
  fin_cases r <;> simp <;> omega

theorem State.PoolsAgree.of_noLarger {s t : State} (pools : s.PoolsAgree) (sizes : ∀ r, (t.room r).NoLarger (s.room r)) :
    t.PoolsAgree := by
  obtain ⟨lines, syllables, notes, entries⟩ := pools
  exact ⟨(State.total_le fun r => (sizes r).lines).trans lines, (State.total_le fun r => (sizes r).syllables).trans syllables,
    (State.total_le fun r => (sizes r).notes).trans notes, (State.total_le fun r => (sizes r).entries).trans entries⟩

/-! ## What the operations keep -/

theorem State.EngineAgrees.of_alike {s t : State} (agree : s.EngineAgrees) (alike : s.engine.Alike t.engine)
    (requests : ∀ c, (s.channel c).request = none → (t.channel c).request = none) : t.EngineAgrees := by
  obtain ⟨idle, running⟩ := agree
  obtain ⟨served, current⟩ := alike
  refine ⟨fun none c => requests c (idle ?_ c), fun a member => ?_⟩
  · rw [none] at current
    exact Option.map_eq_none_iff.1 current.symm
  · rw [Option.mem_def.1 member, Option.map_some, eq_comm, Option.map_eq_some_iff] at current
    obtain ⟨b, before, same⟩ := current
    obtain ⟨channel, window⟩ := running b before
    simp only [Prod.mk.injEq] at same
    rw [← same.1, ← same.2, served]
    exact ⟨channel, window⟩

theorem State.Evolves.keeps {s t : State} (evolves : s.Evolves t) : s.Keeps t where
  agreed := fun ⟨rooms, handsets⟩ =>
    ⟨fun r => (evolves.rooms r).agrees (rooms r),
      handsets.mono (fun r h => (evolves.rooms r).told.inRange h)
        (fun r h online => ((evolves.rooms r).told.online h).trans online) evolves.messages⟩
  recorded := fun ⟨rooms, engine, pools, glyphs⟩ =>
    ⟨fun r => (evolves.rooms r).recorded (rooms r),
      engine.of_alike evolves.engine fun c => (evolves.rooms (roomOf c)).requests (micOf c),
      pools.of_noLarger fun r => (evolves.rooms r).sizes, evolves.glyphs ▸ glyphs⟩
  valued := fun ⟨rooms, presets⟩ =>
    ⟨fun r => (evolves.rooms r).values (rooms r), fun q member => presets q (evolves.messages _ member rfl)⟩
  queues := evolves.link.queues
  line := evolves.link.line

variable {s : State} {r : RoomId}

/-- A room that takes something in, which may have been handed to it, keeps the part in order when the pools still hold
it. -/
theorem State.keeps_letIn {x : Room} {rest : List HandOver} (fewer : ∀ h ∈ rest, h ∈ s.handed)
    (agrees : (s.room r).Agrees → x.Agrees) (recorded : (s.room r).Recorded → x.Recorded)
    (values : s.Valued → x.ValuesInRange) (line : x.line = (s.room r).line) (mics : x.mics = (s.room r).mics)
    (pools : s.EveryRoom Room.Recorded → s.PoolsAgree → (s.setRoom r x).PoolsAgree) :
    s.Keeps { s.setRoom r x with handed := rest } := by
  have every {P : Room → Prop} (own : P x) (all : s.EveryRoom P) : (s.setRoom r x).EveryRoom P := by
    intro q
    by_cases same : q = r
    · subst same; simpa using own
    · rw [State.room_setRoom_of_ne _ same]; exact all q
  have read {α : Type} (f : Room → α) (own : f x = f (s.room r)) (q : RoomId) :
      f ((s.setRoom r x).room q) = f (s.room q) := by
    by_cases same : q = r
    · subst same; simpa using own
    · rw [State.room_setRoom_of_ne _ same]
  have handset (q : RoomId) (h : HandsetId) :
      ({ s.setRoom r x with handed := rest } : State).handset q h = s.handset q h :=
    congrArg (fun ln : RequestLine => ln.records.get h) (read (·.line) line q)
  have channel (c : Channel) : ({ s.setRoom r x with handed := rest } : State).channel c = s.channel c :=
    congrArg (fun m : PerMic MicChannel => m.get (micOf c)) (read (·.mics) mics (roomOf c))
  exact
    { agreed := fun ⟨rooms, handsets⟩ =>
        ⟨every (agrees (rooms r)) rooms, handsets.mono (fun q h range => by rwa [handset]) (fun q h on => by rwa [handset])
          fun h member _ => fewer h member⟩
      recorded := fun ⟨rooms, engine, pool, glyphs⟩ =>
        ⟨every (recorded (rooms r)) rooms, engine.of_alike ⟨rfl, rfl⟩ fun c none => by rwa [channel], pools rooms pool,
          glyphs⟩
      valued := fun valued => ⟨every (values valued) valued.1, fun q member => valued.2 q (fewer _ member)⟩
      queues := id
      line := rfl }

theorem State.keeps_setRoom {x : Room} (agrees : (s.room r).Agrees → x.Agrees) (recorded : (s.room r).Recorded → x.Recorded)
    (values : (s.room r).ValuesInRange → x.ValuesInRange) (line : x.line = (s.room r).line) (mics : x.mics = (s.room r).mics)
    (pools : s.EveryRoom Room.Recorded → s.PoolsAgree → (s.setRoom r x).PoolsAgree) : s.Keeps (s.setRoom r x) :=
  State.keeps_letIn (fun _ member => member) agrees recorded (fun valued => values (valued.1 r)) line mics pools

/-! ## Lines let in (R46 to R49) -/

theorem State.syllablesFit_iff {need back : Nat} :
    s.syllablesFit r need back = true ↔
      (s.room r).lyrics.syllableCount + need ≤ Config.syllablesPerRoom + back ∧
        s.syllablesUsed + need ≤ Config.syllablePool + back := by
  simp [State.syllablesFit]

theorem State.lineFits_iff :
    s.lineFits r = true ↔ (s.room r).lyrics.lineCount < Config.linesPerRoom ∧ s.linesUsed < Config.linePool := by
  simp [State.lineFits]

/-- What a room's lyrics may hold beside those of the other rooms, before and after a change. -/
structure State.LyricsFit (s : State) (r : RoomId) (y : Lyrics) : Prop where
  lines : (s.room r).lyrics.lineCount ≤ Config.linesPerRoom → y.lineCount ≤ Config.linesPerRoom
  linePool : s.linesUsed ≤ Config.linePool → s.linesUsed + y.lineCount ≤ Config.linePool + (s.room r).lyrics.lineCount
  syllables : (s.room r).lyrics.syllableCount ≤ Config.syllablesPerRoom → y.syllableCount ≤ Config.syllablesPerRoom
  syllablePool : s.syllablesUsed ≤ Config.syllablePool →
    s.syllablesUsed + y.syllableCount ≤ Config.syllablePool + (s.room r).lyrics.syllableCount

/-- Lyrics that a room with a song open takes in, in order and within the limits. -/
theorem State.keeps_lyrics {y : Lyrics} (opened : (s.room r).phase.songOpen = true)
    (order : (s.room r).lyrics.InOrder → y.InOrder)
    (rows : (s.room r).lyrics.InOrder → (s.room r).lyrics.RowsAgree → y.RowsAgree)
    (fit : (s.room r).lyrics.InOrder → s.LyricsFit r y) : s.Keeps (s.setRoom r { s.room r with lyrics := y }) := by
  refine State.keeps_setRoom ?_ ?_ id rfl rfl ?_
  · rintro ⟨reasons, timers, queue, head, ⟨lines, syllables, notes, entries⟩, dark, before⟩
    have fit := fit before
    refine ⟨reasons, timers, queue, head, ⟨fit.lines lines, fit.syllables syllables, notes, entries⟩, fun is => ?_,
      order before⟩
    rw [show (s.room r).phase = .dark from is] at opened
    exact absurd opened (by simp [Phase.songOpen])
  · rintro ⟨one, two, roles, count, pictures, row, before, mics⟩
    exact ⟨one, two, roles, count, pictures, rows before row, order before, mics⟩
  · rintro rooms ⟨lines, syllables, notes, entries⟩
    obtain ⟨-, -, -, -, -, -, before, -⟩ := rooms r
    have fit := fit before
    have total := s.total_setRoom r { s.room r with lyrics := y }
    have lineTotal := total (·.lyrics.lineCount)
    have syllableTotal := total (·.lyrics.syllableCount)
    have noteTotal := total (·.melody.notes.length)
    have entryTotal := total (·.queue.entries.length)
    have linePool := fit.linePool lines
    have syllablePool := fit.syllablePool syllables
    simp only [State.PoolsAgree, State.linesUsed, State.syllablesUsed, State.notesUsed, State.entriesUsed] at *
    refine ⟨?_, ?_, ?_, ?_⟩ <;> omega

theorem readLine_loaded {args : List Byte} {l : Line} (read : readLine args = some l) : l.state = .loaded := by
  unfold readLine at read
  dsimp only at read
  split at read
  next => cases read
  next =>
    split at read
    · rw [← Option.some.inj read]
    · cases read

theorem State.keeps_acceptLine {f : Lyrics → Lyrics}
    (kept : s.Keeps (s.setRoom r { s.room r with lyrics := f (s.room r).lyrics })) : s.Keeps (s.acceptLine r f) := by
  unfold State.acceptLine
  dsimp only
  split
  · exact kept.trans (State.evolves_evaluate _ r).keeps
  · exact kept

theorem State.keeps_lyricLine (s : State) (r : RoomId) (args : List Byte) : s.Keeps (s.lyricLine r args).1 := by
  unfold State.lyricLine
  split
  next => exact .refl s
  next opened =>
  have opened : (s.room r).phase.songOpen = true := by simpa using opened
  split
  next => exact .refl s
  next l read =>
  have loaded := readLine_loaded read
  split
  next old found =>
    split
    next => exact .refl s
    split
    next => exact .refl s
    next fits =>
    split
    next => exact .refl s
    next room =>
    obtain ⟨own, pool⟩ := State.syllablesFit_iff.1 (by simpa using room)
    refine State.keeps_acceptLine (State.keeps_lyrics opened
      (fun order => Lyrics.replaceLine_inOrder order found (by simpa using fits))
      (fun order rows => Lyrics.replaceLine_rowsAgree order rows found loaded) fun order => ?_)
    obtain ⟨lines, syllables⟩ := Lyrics.replaceLine_sizes order found
    constructor <;> omega
  next absent =>
    split
    next => exact .refl s
    next late =>
    split
    next => exact .refl s
    next room =>
    rw [Bool.not_eq_true, Bool.not_eq_false', Bool.and_eq_true, State.lineFits_iff, State.syllablesFit_iff] at room
    obtain ⟨⟨own, pool⟩, ownSyllables, syllablePool⟩ := room
    refine State.keeps_acceptLine (State.keeps_lyrics opened
      (fun order => Lyrics.addLine_inOrder order absent (by simpa using late))
      (fun _ rows => Lyrics.addLine_rowsAgree rows loaded) fun _ => ?_)
    have lines : ((s.room r).lyrics.addLine l.clamped).lineCount = (s.room r).lyrics.lineCount + 1 := by
      simp [Lyrics.addLine, Lyrics.lineCount]
    have syllables : ((s.room r).lyrics.addLine l.clamped).syllableCount =
        (s.room r).lyrics.syllableCount + l.syllables.length := by
      simp [Lyrics.addLine, Lyrics.syllableCount]
    constructor <;> omega

/-! ## Notes let in (R113 to R115) -/

theorem Melody.length_addAll {parts : PerMic MicPart} {y z : Melody} {es : List NoteEvent}
    (added : y.addAll parts es = some z) : z.notes.length = y.notes.length + es.length := by
  induction es generalizing y with
  | nil => rw [← Option.some.inj added]; rfl
  | cons e es ih =>
    simp only [Melody.addAll] at added
    split at added
    next => rw [ih added]; simp [Melody.add]; omega
    next => cases added

theorem State.keeps_noteEvents (s : State) (r : RoomId) (args : List Byte) : s.Keeps (s.noteEvents r args).1 := by
  unfold State.noteEvents
  split
  next => exact .refl s
  next opened =>
  have opened : (s.room r).phase.songOpen = true := by simpa using opened
  split
  next => exact .refl s
  next es _ =>
  split
  next => exact .refl s
  next y added =>
  split
  next room =>
    obtain ⟨own, pool⟩ := room
    have length := Melody.length_addAll added
    refine State.keeps_setRoom (x := { s.room r with melody := y }) ?_ id id rfl rfl ?_
    · rintro ⟨reasons, timers, queue, head, ⟨lines, syllables, -, entries⟩, dark, order⟩
      refine ⟨reasons, timers, queue, head, ⟨lines, syllables, length.trans_le own, entries⟩, fun is => ?_, order⟩
      rw [show (s.room r).phase = .dark from is] at opened
      exact absurd opened (by simp [Phase.songOpen])
    · rintro - ⟨lines, syllables, notes, entries⟩
      have total := s.total_setRoom r { s.room r with melody := y }
      have lineTotal := total (·.lyrics.lineCount)
      have syllableTotal := total (·.lyrics.syllableCount)
      have noteTotal := total (·.melody.notes.length)
      have entryTotal := total (·.queue.entries.length)
      simp only [State.PoolsAgree, State.linesUsed, State.syllablesUsed, State.notesUsed, State.entriesUsed] at *
      refine ⟨?_, ?_, ?_, ?_⟩ <;> omega
  next => exact .refl s

/-! ## Entries let in (R147 to R150) -/

/-- The place of an admitted entry is behind an active head (R150). -/
theorem RequestQueue.placeFor_behind {q : RequestQueue} (priority : Bool) (active : q.head?.any Entry.active = true) :
    1 ≤ q.placeFor priority := by
  cases priority with
  | true => simp only [RequestQueue.placeFor, active, if_true]; exact le_max_right ..
  | false =>
    cases entries : q.entries with
    | nil => simp [RequestQueue.head?, entries] at active
    | cons e es => simp [RequestQueue.placeFor, entries]

theorem State.refusal_eq_none {x : HandedRequest} (admitted : s.refusal x = none) :
    (s.room x.room).phase ≠ .dark ∧ (s.room x.room).queue.entries.length < Config.entriesPerRoom ∧
      s.entriesUsed < Config.entryPool := by
  unfold State.refusal at admitted
  dsimp only at admitted
  split at admitted
  next => cases admitted
  next opened =>
  split at admitted
  next => cases admitted
  next room => exact ⟨opened, by omega⟩

/-- A request taken and admitted keeps the part in order. -/
theorem State.keeps_enrol {x : HandedRequest} {rest : List HandOver} (fewer : ∀ h ∈ rest, h ∈ s.handed)
    (admitted : s.refusal x = none) (preset : s.PresetsInRange → x.preset.all (fun p => -6 ≤ p && p ≤ 6) = true) :
    s.Keeps ({ s with handed := rest }.enrol x) := by
  obtain ⟨opened, own, pool⟩ := State.refusal_eq_none admitted
  have longer := (s.room x.room).queue.length_insert ((s.room x.room).queue.placeFor x.priority)
    (x.entry (s.room x.room).queue.ticketToGive)
  refine State.Keeps.trans (State.keeps_letIn (r := x.room) (x := { s.room x.room with
      queue := { (s.room x.room).queue.insert ((s.room x.room).queue.placeFor x.priority)
          (x.entry (s.room x.room).queue.ticketToGive) with
        counter := nextTicket (s.room x.room).queue.ticketToGive } })
    fewer ?_ id ?_ rfl rfl ?_) (State.evolves_queueChange _ x.room).keeps
  · rintro ⟨reasons, timers, ordered, head, ⟨lines, syllables, notes, entries⟩, dark, order⟩
    have few : (s.room x.room).queue.entries.length < Config.ticketMax := own.trans (by decide)
    have ⟨_, _, _, low, high⟩ := ordered
    obtain ⟨free, least, most⟩ := RequestQueue.ticketToGive_free few low high
    have behind := RequestQueue.placeFor_behind (q := (s.room x.room).queue) x.priority
    obtain ⟨tail, nodup, range, -⟩ := ordered.insert (e := x.entry (s.room x.room).queue.ticketToGive) rfl behind free least
      most
    refine ⟨reasons, timers, ⟨tail, nodup, range, nextTicket_bounds _⟩, ?_, ⟨lines, syllables, notes, ?_⟩, ?_, order⟩
    · exact Room.headAgrees_of_same head (fun st active => RequestQueue.headIs_insert rfl behind active) rfl
    · exact longer.trans_le own
    · exact fun is => absurd is opened
  · rintro ⟨rooms, presets⟩
    obtain ⟨timeline, settings, range, others⟩ := rooms x.room
    exact ⟨timeline, settings, range.insert (preset presets), others⟩
  · rintro - ⟨lines, syllables, notes, entries⟩
    have total := s.total_setRoom x.room { s.room x.room with
      queue := { (s.room x.room).queue.insert ((s.room x.room).queue.placeFor x.priority)
          (x.entry (s.room x.room).queue.ticketToGive) with
        counter := nextTicket (s.room x.room).queue.ticketToGive } }
    have lineTotal := total (·.lyrics.lineCount)
    have syllableTotal := total (·.lyrics.syllableCount)
    have noteTotal := total (·.melody.notes.length)
    have entryTotal := total (·.queue.entries.length)
    simp only [State.PoolsAgree, State.linesUsed, State.syllablesUsed, State.notesUsed, State.entriesUsed] at *
    refine ⟨?_, ?_, ?_, ?_⟩ <;> omega

end Sys2Proof.Machine
end

section
/-! SUPPORT. What the events of the handset lines keep (R134 to R145), the taking of requests and cancels with the answers
they return (R140, R149, R152), and a reset of a room (R6). -/

namespace Sys2Proof.Machine

/-! ## Lines and what is on its way -/

/-- Two states of the part differ in the handset lines, in what is on its way and in the notices alone. -/
structure State.OnLines (s t : State) : Prop where
  rooms : ∀ r, ∃ ln, t.room r = { s.room r with line := ln }
  presets : s.PresetsInRange → t.PresetsInRange
  engine : t.engine = s.engine
  glyphs : t.glyphs = s.glyphs
  link : s.link.Follows t.link

theorem State.OnLines.trans {s t u : State} (st : s.OnLines t) (tu : t.OnLines u) : s.OnLines u where
  rooms r := by
    obtain ⟨k, first⟩ := st.rooms r
    obtain ⟨l, second⟩ := tu.rooms r
    exact ⟨l, by rw [second, first]⟩
  presets := tu.presets ∘ st.presets
  engine := tu.engine.trans st.engine
  glyphs := tu.glyphs.trans st.glyphs
  link := st.link.trans tu.link

/-- On the lines only the handsets' agreement can be lost. -/
theorem State.Keeps.onLines {s t u : State} (before : s.Keeps t) (lines : t.OnLines u)
    (handsets : s.HandsetsAgree → t.HandsetsAgree → u.HandsetsAgree) : s.Keeps u := by
  have every {P : Room → Prop} (own : ∀ (rm : Room) (ln : RequestLine), P rm → P { rm with line := ln })
      (all : t.EveryRoom P) : u.EveryRoom P := by
    intro q
    obtain ⟨ln, room⟩ := lines.rooms q
    rw [room]
    exact own _ ln (all q)
  have sizes (q : RoomId) : (u.room q).NoLarger (t.room q) := by
    obtain ⟨ln, room⟩ := lines.rooms q
    rw [room]
    exact ⟨le_rfl, le_rfl, le_rfl, le_rfl⟩
  have channel (c : Channel) : u.channel c = t.channel c := by
    obtain ⟨ln, room⟩ := lines.rooms (roomOf c)
    simp only [State.channel, room]
  refine
    { agreed := fun agreed => ?_, recorded := fun recorded => ?_, valued := fun valued => ?_
      queues := lines.link.queues ∘ before.queues, line := lines.link.line.trans before.line }
  · obtain ⟨rooms, agree⟩ := before.agreed agreed
    exact ⟨every (fun _ _ => id) rooms, handsets agreed.2 agree⟩
  · obtain ⟨rooms, engine, pools, glyphs⟩ := before.recorded recorded
    exact ⟨every (fun _ _ => id) rooms,
      engine.of_alike (by rw [lines.engine]; exact ⟨rfl, rfl⟩) fun c none => by rwa [channel],
      pools.of_noLarger sizes, lines.glyphs ▸ glyphs⟩
  · obtain ⟨rooms, presets⟩ := before.valued valued
    exact ⟨every (fun _ _ => id) rooms, lines.presets presets⟩

theorem State.OnLines.keeps {s t : State} (lines : s.OnLines t) (handsets : s.HandsetsAgree → t.HandsetsAgree) :
    s.Keeps t := (State.Keeps.refl s).onLines lines fun _ => handsets

variable (s : State) (r : RoomId)

theorem State.onLines_refl : s.OnLines s := ⟨fun _ => ⟨_, rfl⟩, id, rfl, rfl, ⟨id, rfl, rfl⟩⟩

theorem State.onLines_modLine (f : RequestLine → RequestLine) : s.OnLines (s.modLine r f) := by
  refine ⟨fun q => ?_, id, rfl, rfl, ⟨id, rfl, rfl⟩⟩
  by_cases same : q = r
  · subst same; exact ⟨_, s.room_modLine_self q f⟩
  · exact ⟨_, s.room_modRoom_of_ne same _⟩

theorem State.onLines_forgetAnswers (who : HandsetId → Bool) : s.OnLines (s.forgetAnswers r who) := by
  refine ⟨fun q => ⟨_, rfl⟩, fun presets q member => ?_, rfl, rfl, ⟨id, rfl, rfl⟩⟩
  obtain ⟨h, before, forgotten⟩ := List.mem_map.1 member
  cases h with
  | request p =>
    have range := presets p before
    simp only [HandOver.forget] at forgotten
    split at forgotten <;> rw [← HandOver.request.inj forgotten] <;> exact range
  | cancel c => simp only [HandOver.forget] at forgotten; split at forgotten <;> cases forgotten
  | _ => cases forgotten

theorem State.onLines_raise {k : NoticeKind} (kind : k ≠ .ready) : s.OnLines (s.raise r k) := by
  rw [State.raise_eq_hear]
  exact ⟨fun _ => ⟨_, rfl⟩, id, rfl, rfl, s.link.follows_hear _ r kind⟩

theorem State.onLines_hand {h : HandOver}
    (preset : ∀ q, h = .request q → q.preset.all (fun p => -6 ≤ p && p ≤ 6) = true) : s.OnLines (s.hand h) := by
  refine ⟨fun _ => ⟨_, rfl⟩, fun presets q member => ?_, rfl, rfl, ⟨id, rfl, rfl⟩⟩
  rcases List.mem_append.1 member with old | new
  · exact presets q old
  · exact preset q (List.mem_singleton.1 new).symm

/-! ## Handset records -/

theorem State.handset_modLine (f : RequestLine → RequestLine) (q : RoomId) (h : HandsetId) :
    (s.modLine r f).handset q h = if q = r then (f (s.room r).line).records.get h else s.handset q h := by
  split
  next same => subst same; simp [State.handset]
  next other => exact congrArg (fun rm : Room => rm.line.records.get h) (s.room_modRoom_of_ne other _)

theorem RequestLine.get_modRecord (ln : RequestLine) (h k : HandsetId) (f : HandsetRecord → HandsetRecord) :
    (ln.modRecord h f).records.get k = if k = h then f (ln.records.get h) else ln.records.get k := by
  split
  next same => rw [same]; exact ln.modRecord_self h f
  next other => exact ln.modRecord_of_ne other f

/-- Of all the handsets' records the one named is changed. -/
theorem State.handset_modRecord (h : HandsetId) (f : HandsetRecord → HandsetRecord) (q : RoomId) (k : HandsetId) :
    (s.modLine r (RequestLine.modRecord h f)).handset q k =
      if q = r ∧ k = h then f (s.handset q k) else s.handset q k := by
  rw [State.handset_modLine, RequestLine.get_modRecord]
  by_cases room : q = r
  · subst room
    by_cases mine : k = h
    · subst mine; simp [State.handset]
    · simp [mine, State.handset]
  · simp [room]

/-- A line whose records differ from another's in one that stays in range and ONLINE or OFFLINE. -/
theorem RequestLine.told_of_modRecord {a b : RequestLine} {h : HandsetId} {f : HandsetRecord → HandsetRecord}
    (records : b.records = (a.modRecord h f).records) (inRange : (a.records.get h).InRange → (f (a.records.get h)).InRange)
    (online : (f (a.records.get h)).online = (a.records.get h).online) : a.Told b := by
  have told := RequestLine.told_set (ln := a) a.slot inRange online
  exact ⟨fun k => records ▸ told.inRange k, fun k => records ▸ told.online k⟩

theorem RequestLine.told_of_records {a b : RequestLine} (records : b.records = a.records) : a.Told b :=
  ⟨fun _ range => records ▸ range, fun _ => by rw [records]⟩

/-! ## Awaited answers (R140) -/

/-- Awaited answers that are forgotten, or whose handsets stay ONLINE, leave no one waiting in vain. -/
theorem State.awaits_forget {s t : State} {r : RoomId} {who : HandsetId → Bool} {x : HandOver} (awaited : s.awaits x = true)
    (online : ∀ q h, ¬(q = r ∧ who h = true) → (s.handset q h).online = true → (t.handset q h).online = true) :
    t.awaits (x.forget r who) = true := by
  cases x with
  | request q =>
    by_cases forgotten : q.room = r ∧ who q.sender = true
    · simp [HandOver.forget, forgotten, State.awaits]
    · simp only [HandOver.forget, forgotten, if_false, State.awaits, Bool.or_eq_true] at awaited ⊢
      exact awaited.imp_right (online _ _ forgotten)
  | cancel c =>
    by_cases forgotten : c.room = r ∧ who c.sender = true
    · simp [HandOver.forget, forgotten, State.awaits]
    · simp only [HandOver.forget, forgotten, if_false, State.awaits, Bool.or_eq_true] at awaited ⊢
      exact awaited.imp_right (online _ _ forgotten)
  | _ => rfl

/-- Handsets that leave their range or go OFFLINE are made OFFLINE records, and their answers forgotten. -/
theorem State.handsetsAgree_of_forgotten {s t : State} {r : RoomId} {who : HandsetId → Bool} (agree : s.HandsetsAgree)
    (handed : t.handed = s.handed.map (HandOver.forget r who))
    (others : ∀ q h, ¬(q = r ∧ who h = true) → (s.handset q h).InRange →
      (t.handset q h).InRange ∧ ((s.handset q h).online = true → (t.handset q h).online = true))
    (own : ∀ h, who h = true → (s.handset r h).InRange → (t.handset r h).InRange) : t.HandsetsAgree := by
  obtain ⟨ranges, awaited⟩ := agree
  refine ⟨fun q h => ?_, fun x member => ?_⟩
  · by_cases named : q = r ∧ who h = true
    · obtain ⟨rfl, named⟩ := named
      exact own h named (ranges q h)
    · exact (others q h named (ranges q h)).1
  · rw [handed] at member
    obtain ⟨y, before, rfl⟩ := List.mem_map.1 member
    exact State.awaits_forget (awaited y before) fun q h other => (others q h other (ranges q h)).2

theorem HandsetRecord.offline_inRange : HandsetRecord.offline.InRange :=
  ⟨by decide, by decide, fun _ => rfl⟩

/-- Two states that hold the same records and the same on its way. -/
theorem State.HandsetsAgree.of_same {s t : State} (agree : s.HandsetsAgree) (handset : ∀ q h, t.handset q h = s.handset q h)
    (handed : t.handed = s.handed) : t.HandsetsAgree :=
  agree.mono (fun q h range => by rwa [handset]) (fun q h on => by rwa [handset]) fun x member _ => handed ▸ member

/-! ## Misses (R136, R138) -/

theorem State.onLines_reportHandset (h : HandsetId) : s.OnLines (s.reportHandset r h) :=
  (s.onLines_modLine r _).trans (State.onLines_raise _ r (by decide))

@[simp] theorem State.reportHandset_handset (h : HandsetId) (q : RoomId) (k : HandsetId) :
    (s.reportHandset r h).handset q k = s.handset q k := by
  have raised : (s.reportHandset r h).handset q k =
      (s.modLine r fun ln => { ln with changed := some h }).handset q k := by
    simp [State.reportHandset, State.handset]
  rw [raised, State.handset_modLine]
  split
  next same => subst same; rfl
  next => rfl

@[simp] theorem State.reportHandset_handed (h : HandsetId) : (s.reportHandset r h).handed = s.handed := by
  simp [State.reportHandset]

theorem State.onLines_takeOffline (h : HandsetId) : s.OnLines (s.takeOffline r h) :=
  ((s.onLines_modLine r _).trans (State.onLines_forgetAnswers _ r _)).trans (State.onLines_reportHandset _ r h)

theorem State.takeOffline_handset (h : HandsetId) (q : RoomId) (k : HandsetId) :
    (s.takeOffline r h).handset q k = if q = r ∧ k = h then HandsetRecord.offline else s.handset q k := by
  rw [State.takeOffline, State.reportHandset_handset]
  exact s.handset_modRecord r h _ q k

theorem State.takeOffline_handed (h : HandsetId) :
    (s.takeOffline r h).handed = s.handed.map (HandOver.forget r (· = h)) := by
  rw [State.takeOffline, State.reportHandset_handed]
  rfl

/-- What a miss counts is at most the misses of the handset polled. -/
theorem RequestLine.failWindow_get (ln : RequestLine) (o : Slot) (silent : Bool) (k : HandsetId) :
    (ln.failWindow o silent).records.get k =
      if k = o.handset ∧ (ln.records.get o.handset).online = true then (ln.records.get k).missed else ln.records.get k := by
  unfold RequestLine.failWindow
  dsimp only
  by_cases online : (ln.records.get o.handset).online = true
  · rw [if_pos (show (ln.idle.records.get o.handset).online = true from online), RequestLine.get_modRecord]
    by_cases same : k = o.handset
    · subst same; cases silent <;> simp [online, RequestLine.idle]
    · cases silent <;> simp [same, RequestLine.idle]
  · rw [if_neg (show ¬(ln.idle.records.get o.handset).online = true from online)]
    cases silent <;> simp [online, RequestLine.idle]

theorem State.onLines_failWindow (o : Slot) (silent : Bool) : s.OnLines (s.failWindow r o silent) := by
  have closed := s.onLines_modLine r (RequestLine.failWindow o silent)
  unfold State.failWindow
  dsimp only
  split
  · exact closed.trans (State.onLines_takeOffline _ r _)
  · exact closed

theorem State.handsetsAgree_failWindow (o : Slot) (silent : Bool) (agree : s.HandsetsAgree) :
    (s.failWindow r o silent).HandsetsAgree := by
  have get (q : RoomId) (k : HandsetId) : (s.modLine r (RequestLine.failWindow o silent)).handset q k =
      if (q = r ∧ k = o.handset) ∧ (s.handset r o.handset).online = true then (s.handset q k).missed else s.handset q k := by
    rw [State.handset_modLine, RequestLine.failWindow_get]
    by_cases room : q = r
    · subst room; simp [State.handset]
    · simp [room]
  unfold State.failWindow
  dsimp only
  split
  next last =>
    refine State.handsetsAgree_of_forgotten agree (State.takeOffline_handed ..) (fun q h other range => ?_)
      fun h named range => ?_
    · rw [State.takeOffline_handset, get]
      simp only [decide_eq_true_eq] at other
      rw [if_neg other, if_neg fun named => other named.1]
      exact ⟨range, id⟩
    · rw [State.takeOffline_handset, if_pos ⟨rfl, by simpa using named⟩]
      exact HandsetRecord.offline_inRange
  next another =>
    refine agree.mono (fun q h range => ?_) (fun q h on => ?_) fun _ member _ => member
    · rw [get]
      split
      next missed =>
        obtain ⟨⟨rfl, rfl⟩, online⟩ := missed
        obtain ⟨-, places, -⟩ := range
        simp only [HandsetRecord.lastChance, online, Bool.true_and, decide_eq_true_eq, not_le] at another
        exact ⟨another, places, fun off => absurd (online.symm.trans off) (by simp)⟩
      next => exact range
    · rw [get]
      split <;> exact on

theorem State.keeps_failWindow (o : Slot) (silent : Bool) : s.Keeps (s.failWindow r o silent) :=
  (s.onLines_failWindow r o silent).keeps (s.handsetsAgree_failWindow r o silent)

theorem State.keeps_closeWindow : s.Keeps (s.closeWindow r) := by
  unfold State.closeWindow
  split
  next => exact .refl s
  next => exact s.keeps_failWindow r _ _

theorem State.keeps_thirdMiss (h : HandsetId) : s.Keeps (s.thirdMiss r h) := by
  unfold State.thirdMiss
  split
  · exact s.keeps_closeWindow r
  · exact .refl s

/-! ## Polls (R134, R135) -/

theorem State.keeps_pollSlot : s.Keeps (s.pollSlot r) := by
  unfold State.pollSlot
  split
  next =>
    refine (s.keeps_closeWindow r).trans ?_
    dsimp only
    split
    next h probe _ =>
      refine (State.evolves_modLine _ r (f := RequestLine.poll h probe) (RequestLine.told_of_modRecord (h := h)
        (f := fun x => { x with answerPending := false }) rfl ?_ rfl)).keeps
      rintro ⟨misses, places, off⟩
      refine ⟨misses, places, fun is => ?_⟩
      rw [off is]
      rfl
    next => exact .refl _
  next => exact .refl s

/-! ## Replies (R139 to R143) -/

theorem HandsetRecord.InRange.online {x y : HandsetRecord} (range : x.InRange) (misses : y.misses = x.misses)
    (places : y.outbox = x.outbox) (on : y.online = true) : y.InRange :=
  ⟨misses ▸ range.1, places ▸ range.2.1, fun off => absurd (on.symm.trans off) (by simp)⟩

theorem State.onLines_confirm (o : Slot) : s.OnLines (s.confirm r o) := by
  have answered := s.onLines_modLine r fun ln => ln.idle.modRecord o.handset (HandsetRecord.answered o)
  unfold State.confirm
  dsimp only
  split
  · exact answered.trans (State.onLines_reportHandset _ r _)
  · exact answered

theorem State.confirm_handset (o : Slot) (q : RoomId) (k : HandsetId) :
    (s.confirm r o).handset q k = if q = r ∧ k = o.handset then (s.handset q k).answered o else s.handset q k := by
  have answered : (s.modLine r fun ln => ln.idle.modRecord o.handset (HandsetRecord.answered o)).handset q k =
      if q = r ∧ k = o.handset then (s.handset q k).answered o else s.handset q k := by
    rw [State.handset_modLine, RequestLine.get_modRecord]
    by_cases room : q = r
    · subst room
      by_cases same : k = o.handset
      · subst same; simp [State.handset, RequestLine.idle]
      · simp [same, State.handset, RequestLine.idle]
    · simp [room]
  unfold State.confirm
  dsimp only
  split
  · rw [State.reportHandset_handset, answered]
  · exact answered

theorem State.confirm_handed (o : Slot) : (s.confirm r o).handed = s.handed := by
  unfold State.confirm
  dsimp only
  split
  · rw [State.reportHandset_handed]; rfl
  · rfl

theorem State.confirm_online (o : Slot) : ((s.confirm r o).handset r o.handset).online = true := by
  rw [State.confirm_handset, if_pos ⟨rfl, rfl⟩]; rfl

theorem State.keeps_confirm (o : Slot) : s.Keeps (s.confirm r o) := by
  refine (s.onLines_confirm r o).keeps fun agree => ?_
  refine agree.mono (fun q h range => ?_) (fun q h on => ?_) fun _ member _ => s.confirm_handed r o ▸ member
  · rw [State.confirm_handset]
    split
    · obtain ⟨-, places, -⟩ := range
      refine ⟨(by decide : 0 < Config.missLimit), ?_, fun off => absurd off (by simp [HandsetRecord.answered])⟩
      simp only [HandsetRecord.answered]
      split
      · simp only [List.length_tail]; omega
      · exact places
    · exact range
  · rw [State.confirm_handset]
    split
    · rfl
    · exact on

/-- A change of an ONLINE handset's record that keeps its misses and its outbox. -/
theorem State.keeps_modRecord {s : State} {r : RoomId} {h : HandsetId} {f : HandsetRecord → HandsetRecord}
    (on : (s.handset r h).online = true)
    (same : ∀ x, (f x).misses = x.misses ∧ (f x).outbox = x.outbox ∧ (f x).online = x.online) :
    s.Keeps (s.modLine r (RequestLine.modRecord h f)) := by
  obtain ⟨misses, places, online⟩ := same ((s.room r).line.records.get h)
  exact (State.evolves_modLine _ r (RequestLine.told_of_modRecord rfl
    (fun range => range.online misses places (online.trans on)) online)).keeps

theorem State.modRecord_online {h : HandsetId} {f : HandsetRecord → HandsetRecord} (same : ∀ x, (f x).online = x.online)
    (q : RoomId) (k : HandsetId) :
    ((s.modLine r (RequestLine.modRecord h f)).handset q k).online = (s.handset q k).online := by
  rw [State.handset_modRecord]
  split
  · exact same _
  · rfl

theorem State.keeps_forgetAnswers (who : HandsetId → Bool) : s.Keeps (s.forgetAnswers r who) :=
  (s.onLines_forgetAnswers r who).keeps fun agree =>
    State.handsetsAgree_of_forgotten agree rfl (fun _ _ _ range => ⟨range, id⟩) fun _ _ range => range

/-- A message of an ONLINE handset handed to the queue manager. -/
theorem State.keeps_hand {s : State} {x : HandOver} (awaits : s.awaits x = true)
    (preset : ∀ q, x = .request q → q.preset.all (fun p => -6 ≤ p && p ≤ 6) = true) : s.Keeps (s.hand x) := by
  refine (s.onLines_hand preset).keeps fun ⟨ranges, awaited⟩ => ⟨ranges, fun y member => ?_⟩
  rcases List.mem_append.1 member with old | new
  · exact awaited y old
  · rw [List.mem_singleton.1 new]; exact awaits

theorem State.keeps_actOn {s : State} {r : RoomId} {h : HandsetId} (on : (s.handset r h).online = true) (bit : Bool)
    {m : Message} (preset : ∀ song duet preset priority, m = .request song duet preset priority →
      preset.all (fun p => -6 ≤ p && p ≤ 6) = true) : s.Keeps (s.actOn r h bit m) := by
  have on' : (((s.forgetAnswers r (· = h)).modLine r (RequestLine.modRecord h (HandsetRecord.accept bit))).handset r
      h).online = true := (State.modRecord_online (s.forgetAnswers r (· = h)) r (f := HandsetRecord.accept bit) (fun _ => rfl) r h).trans on
  have accepted : s.Keeps ((s.forgetAnswers r (· = h)).modLine r (RequestLine.modRecord h (HandsetRecord.accept bit))) :=
    (s.keeps_forgetAnswers r _).trans
      (State.keeps_modRecord (s := s.forgetAnswers r (· = h)) on fun _ => ⟨rfl, rfl, rfl⟩)
  have answered (a : Answer) := State.keeps_modRecord (f := HandsetRecord.store a bit) on' fun _ => ⟨rfl, rfl, rfl⟩
  unfold State.actOn
  dsimp only
  cases m with
  | idle => exact accepted
  | statusAsk => exact accepted.trans (answered _)
  | cancel ticket => exact accepted.trans (State.keeps_hand on' nofun)
  | request song duet key priority =>
    dsimp only
    split
    · refine accepted.trans (State.keeps_hand on' fun q is => ?_)
      rw [← HandOver.request.inj is]
      exact preset song duet key priority rfl
    · exact accepted.trans (answered _)

theorem readMessage_preset {kind : Nat} {bs : List Byte} {song : Nat} {duet priority : Bool} {preset : Option Int}
    (read : readMessage kind bs = some (.request song duet preset priority)) :
    preset.all (fun p => -6 ≤ p && p ≤ 6) = true := by
  unfold readMessage at read
  split at read
  next => cases read
  next =>
    obtain ⟨-, -, rfl, -⟩ := Message.request.inj (Option.some.inj read)
    split
    · obtain ⟨low, high⟩ := clampInt_bounds (lo := -6) (hi := 6) (by decide) (i8 bs 5)
      simp [low, high]
    · rfl
  all_goals cases read

theorem judgeReply_preset {h : HandsetId} {cs : List RxChar} {bit : Bool} {song : Nat} {duet priority : Bool}
    {preset : Option Int} (judged : judgeReply h cs = some (bit, .request song duet preset priority)) :
    preset.all (fun p => -6 ≤ p && p ≤ 6) = true := by
  unfold judgeReply at judged
  dsimp only at judged
  split at judged
  next => cases judged
  split at judged
  next => cases judged
  split at judged
  next => cases judged
  split at judged
  next m _ read =>
    obtain ⟨-, rfl⟩ := Prod.mk.inj (Option.some.inj judged)
    exact readMessage_preset read
  next => cases judged

theorem State.keeps_takeReply (o : Slot) (cs : List RxChar) : s.Keeps (s.takeReply r o cs) := by
  unfold State.takeReply
  split
  next => exact s.keeps_failWindow r o false
  next bit m judged =>
    refine (s.keeps_confirm r o).trans ?_
    have on := s.confirm_online r o
    unfold State.dealWith
    split
    next => exact .refl _
    next =>
    split
    next =>
      exact State.keeps_modRecord on fun x => ⟨rfl, rfl, rfl⟩
    next =>
      refine State.keeps_actOn on bit ?_
      rintro song duet preset priority rfl
      exact judgeReply_preset judged

theorem State.keeps_handsetReply (cs : List RxChar) : s.Keeps (s.handsetReply r cs) := by
  unfold State.handsetReply
  split
  next => exact .refl s
  next o _ =>
    dsimp only
    split
    next => exact s.keeps_takeReply r o _
    next => exact (State.evolves_modLine _ r (RequestLine.told_of_records rfl)).keeps

/-! ## Answers of the queue manager (R140, R149, R152) -/

/-- An answer is returned to a handset that is ONLINE while it awaits one. -/
theorem State.Keeps.returnAnswer {s t : State} (keeps : s.Keeps t) {r : RoomId} {h : HandsetId} {bit live : Bool} (a : Answer)
    (awaited : s.HandsetsAgree → live = true → (t.handset r h).online = true) : s.Keeps (t.returnAnswer r h bit live a) := by
  unfold State.returnAnswer
  split
  next live =>
    refine keeps.onLines (t.onLines_modLine r _) fun before agree => ?_
    have on := awaited before live
    refine agree.mono (fun q k range => ?_) (fun q k on => ?_) fun _ member _ => member
    · rw [State.handset_modRecord]
      split
      next named =>
        obtain ⟨rfl, rfl⟩ := named
        exact range.online rfl rfl on
      next => exact range
    · exact (t.modRecord_online r (f := HandsetRecord.store a bit) (fun _ => rfl) q k).trans on
  next => exact keeps

/-- What is said of a message that has been taken was said of it while it waited. -/
theorem State.mem_of_takeFirst {α : Type} {f : HandOver → Option α} {hs rest : List HandOver} {x : α}
    (taken : takeFirst f hs = some (x, rest)) : (∃ h ∈ hs, f h = some x) ∧ ∀ h ∈ rest, h ∈ hs := by
  obtain ⟨before, h, after, rfl, accepts, -, rfl⟩ := takeFirst_some taken
  exact ⟨⟨h, by simp, accepts⟩, by simp; tauto⟩

theorem State.enrol_line (x : HandedRequest) (q : RoomId) (h : HandsetId) :
    ((s.enrol x).handset q h).online = (s.handset q h).online := by
  have changed := (State.evolves_queueChange (s.modRoom x.room fun rm => { rm with
    queue := { rm.queue.insert (rm.queue.placeFor x.priority) (x.entry rm.queue.ticketToGive) with
      counter := nextTicket rm.queue.ticketToGive } }) x.room).rooms q
  refine (changed.told.online h).trans ?_
  by_cases same : q = x.room
  · subst same; simp [State.handset]
  · rw [State.room_modRoom_of_ne _ same]; rfl

theorem State.keeps_request : s.Keeps (s.request r) := by
  unfold State.request
  split
  next => exact .refl s
  next x rest taken =>
    obtain ⟨⟨h, waiting, accepts⟩, fewer⟩ := State.mem_of_takeFirst taken
    obtain ⟨rfl, rfl⟩ : h = .request x ∧ x.room = r := by
      cases h with
      | request q =>
        simp only at accepts
        split at accepts
        next room => obtain rfl := Option.some.inj accepts; exact ⟨rfl, room⟩
        next => cases accepts
      | _ => cases accepts
    have online (agree : s.HandsetsAgree) (live : x.live = true) : (s.handset x.room x.sender).online = true := by
      simpa [State.awaits, live] using agree.2 _ waiting
    cases refused : ({ s with handed := rest } : State).refusal x with
    | some code =>
      simp only [State.takeRequest, refused]
      exact (s.evolves_handed fewer).keeps.returnAnswer _ online
    | none =>
      simp only [State.takeRequest, refused]
      refine State.Keeps.returnAnswer (State.keeps_enrol fewer refused fun presets => presets x waiting) _
        fun agree live => ?_
      rw [State.enrol_line]
      exact online agree live

theorem State.keeps_cancel : s.Keeps (s.cancel r) := by
  unfold State.cancel
  split
  next => exact .refl s
  next x rest taken =>
    obtain ⟨⟨h, waiting, accepts⟩, fewer⟩ := State.mem_of_takeFirst taken
    obtain ⟨rfl, rfl⟩ : h = .cancel x ∧ x.room = r := by
      cases h with
      | cancel c =>
        simp only at accepts
        split at accepts
        next room => obtain rfl := Option.some.inj accepts; exact ⟨rfl, room⟩
        next => cases accepts
      | _ => cases accepts
    have evolves := (s.evolves_handed fewer).trans (State.evolves_takeCancel _ x)
    refine evolves.keeps.returnAnswer _ fun agree live => ?_
    refine ((evolves.rooms x.room).told.online x.sender).trans ?_
    change (s.handset x.room x.sender).online = true
    simpa [State.awaits, live] using agree.2 _ waiting

/-! ## A room reset (R6) -/

theorem Room.keeps_defaults (rm : Room) : rm.Keeps { rm.toDefaults with line := rm.line } := by
  refine { values := ?_ }
  rintro ⟨⟨-, -, others⟩, -, presets, length, clock⟩
  exact ⟨⟨(by decide : 80 ≤ Settings.default.defaultTempo), (by decide : Settings.default.defaultTempo ≤ 120), others⟩,
    (by decide : Settings.default.InRange), presets, length, clock⟩

/-- A handset line in its reset state, its last messages aside (R133, R137). -/
def RequestLine.anew (ln : RequestLine) : RequestLine :=
  { RequestLine.start with changed := ln.changed, sent := ln.sent }

theorem RequestLine.anew_get (ln : RequestLine) (h : HandsetId) : ln.anew.records.get h = HandsetRecord.offline := by
  simp [RequestLine.anew, RequestLine.start, Vector.get]

/-- A line reset, with no answer awaited any longer. -/
theorem State.keeps_lineReset : s.Keeps ((s.modLine r RequestLine.anew).forgetAnswers r fun _ => true) := by
  have get (q : RoomId) (h : HandsetId) : ((s.modLine r RequestLine.anew).forgetAnswers r fun _ => true).handset q h =
      if q = r then HandsetRecord.offline else s.handset q h := by
    refine (s.handset_modLine r RequestLine.anew q h).trans ?_
    rw [RequestLine.anew_get]
  refine ((s.onLines_modLine r _).trans (State.onLines_forgetAnswers _ r _)).keeps fun agree => ?_
  refine State.handsetsAgree_of_forgotten agree rfl (fun q h other range => ?_) fun h _ _ => ?_
  · rw [get, if_neg (by simpa using other)]
    exact ⟨range, id⟩
  · rw [get, if_pos rfl]
    exact HandsetRecord.offline_inRange

theorem State.keeps_resetRoom : s.Keeps (s.resetRoom r) := by
  have split (t : State) : t.modRoom r Room.toDefaults =
      (t.modRoom r fun rm => { rm.toDefaults with line := rm.line }).modLine r RequestLine.anew := by
    rw [State.modLine, State.modRoom_modRoom]
    rfl
  rw [State.resetRoom, split]
  refine (s.evolves_closeRoom r).keeps.trans (State.Keeps.trans ?_ (State.keeps_lineReset _ r))
  exact (State.evolves_modRoom (r := r) (f := fun rm => { rm.toDefaults with line := rm.line })
    (Room.keeps_defaults _)).keeps

end Sys2Proof.Machine
end

section
/-! SUPPORT. What the arrival of samples and the completion of an analysis keep: the channels' ranges (R93, R94), and the
agreement of the engine with the requests that wait (R96 to R101). -/

namespace Sys2Proof.Machine

/-! ## Channels that one arrival changes -/

/-- Two states of the part differ in the microphones' channels, the engine, what is on its way but for the messages, and
the MIC cells that wait alone. -/
structure State.OnMics (s t : State) : Prop where
  rooms : ∀ r, ∃ p, t.room r = { s.room r with mics := p }
  ranges : ∀ c, (s.channel c).InRange → (t.channel c).InRange
  messages : ∀ h ∈ t.handed, h.isMessage = true → h ∈ s.handed
  glyphs : t.glyphs = s.glyphs
  link : s.link.Follows t.link

theorem State.OnMics.refl (s : State) : s.OnMics s := ⟨fun _ => ⟨_, rfl⟩, fun _ => id, fun _ member _ => member, rfl, id, rfl, rfl⟩

theorem State.OnMics.trans {s t u : State} (st : s.OnMics t) (tu : t.OnMics u) : s.OnMics u where
  rooms r := by
    obtain ⟨p, first⟩ := st.rooms r
    obtain ⟨q, second⟩ := tu.rooms r
    exact ⟨q, by rw [second, first]⟩
  ranges c := tu.ranges c ∘ st.ranges c
  messages h member message := st.messages h (tu.messages h member message) message
  glyphs := tu.glyphs.trans st.glyphs
  link := st.link.trans tu.link

/-- A room's channels in range, channel by channel. -/
theorem State.micsInRange_iff {s : State} :
    (∀ c, (s.channel c).InRange) ↔ ∀ r, (s.room r).mics.one.InRange ∧ (s.room r).mics.two.InRange := by
  refine ⟨fun all r => ?_, fun all c => ?_⟩
  · have one := all (channelOf r .mic1)
    have two := all (channelOf r .mic2)
    simp only [State.channel, roomOf_channelOf, micOf_channelOf] at one two
    exact ⟨one, two⟩
  · obtain ⟨one, two⟩ := all (roomOf c)
    unfold State.channel
    cases micOf c
    · exact one
    · exact two

/-- On the microphones the engine's agreement can be lost, and nothing else. -/
theorem State.OnMics.keeps {s t : State} (mics : s.OnMics t)
    (engine : (∀ c, (s.channel c).InRange) → s.EngineAgrees → t.EngineAgrees) : s.Keeps t := by
  have every {P : Room → Prop} (own : ∀ (rm : Room) (p : PerMic MicChannel), P rm → P { rm with mics := p })
      (all : s.EveryRoom P) : t.EveryRoom P := by
    intro q
    obtain ⟨p, room⟩ := mics.rooms q
    rw [room]
    exact own _ p (all q)
  have sizes (q : RoomId) : (t.room q).NoLarger (s.room q) := by
    obtain ⟨p, room⟩ := mics.rooms q
    rw [room]
    exact ⟨le_rfl, le_rfl, le_rfl, le_rfl⟩
  have handset (q : RoomId) (h : HandsetId) : t.handset q h = s.handset q h := by
    obtain ⟨p, room⟩ := mics.rooms q
    simp only [State.handset, room]
  refine
    { agreed := fun ⟨rooms, handsets⟩ => ?_, recorded := fun ⟨rooms, agree, pools, glyphs⟩ => ?_
      valued := fun ⟨rooms, presets⟩ => ?_, queues := mics.link.queues, line := mics.link.line }
  · exact ⟨every (fun _ _ => id) rooms, handsets.mono (fun q h range => by rwa [handset]) (fun q h on => by rwa [handset])
      mics.messages⟩
  · have ranges := State.micsInRange_iff.2 fun r => (rooms r).2.2.2.2.2.2.2
    have after := State.micsInRange_iff.1 fun c => mics.ranges c (ranges c)
    refine ⟨fun q => ?_, engine ranges agree, pools.of_noLarger sizes, mics.glyphs ▸ glyphs⟩
    obtain ⟨one, two, roles, count, pictures, rows, order, -⟩ := rooms q
    obtain ⟨p, room⟩ := mics.rooms q
    have range := after q
    rw [room] at range ⊢
    exact ⟨one, two, roles, count, pictures, rows, order, range⟩
  · exact ⟨every (fun _ _ => id) rooms, fun q member => presets q (mics.messages _ member rfl)⟩

variable {s : State} {r : RoomId}

theorem channelOf_roomOf (c : Channel) : channelOf (roomOf c) (micOf c) = c := by decide +revert

theorem State.channel_modChannel (s : State) (c d : Channel) (f : MicChannel → MicChannel) :
    (s.modChannel c f).channel d = if d = c then f (s.channel c) else s.channel d := by
  split
  next same => subst same; exact s.channel_modChannel_self d f
  next other =>
    simp only [State.channel, State.modChannel]
    by_cases room : roomOf d = roomOf c
    · have mic : micOf d ≠ micOf c := fun same => other (by rw [← channelOf_roomOf d, room, same, channelOf_roomOf])
      rw [room, State.room_modRoom_self, PerMic.get_set_of_ne _ mic]
    · rw [State.room_modRoom_of_ne _ room]

theorem State.onMics_modChannel {c : Channel} {f : MicChannel → MicChannel}
    (range : (s.channel c).InRange → (f (s.channel c)).InRange) : s.OnMics (s.modChannel c f) := by
  refine ⟨fun q => ?_, fun d inRange => ?_, fun _ member _ => member, rfl, id, rfl, rfl⟩
  · unfold State.modChannel
    by_cases room : q = roomOf c
    · subst room; exact ⟨_, s.room_modRoom_self _ _⟩
    · exact ⟨_, s.room_modRoom_of_ne room _⟩
  · rw [State.channel_modChannel]
    split
    next same => subst same; exact range inRange
    next => exact inRange

/-! ## Ranges (R93 to R97) -/

theorem MicChannel.InRange.nextCell {c : MicChannel} (range : c.InRange) (displaced : Bool) :
    (c.nextCell displaced).InRange := by
  obtain ⟨-, sequence, lost, others⟩ := range
  refine ⟨(by decide : 0 < Config.micCellSamples), ?_, ?_, others⟩
  · simp only [MicChannel.nextCell]; omega
  · cases displaced
    · exact lost
    · exact satInc_le _ lost

theorem MicChannel.InRange.ageRequest {c : MicChannel} (range : c.InRange) : c.ageRequest.InRange := by
  obtain ⟨staging, sequence, lost, length, ring, position, hops, request, dropped⟩ := range
  unfold MicChannel.ageRequest
  split
  · exact ⟨staging, sequence, lost, length, ring, position, hops, by simp, satInc_le _ dropped⟩
  next younger =>
    refine ⟨staging, sequence, lost, length, ring, position, hops, fun q member => ?_, dropped⟩
    obtain ⟨p, waiting, rfl⟩ := Option.map_eq_some_iff.1 (Option.mem_def.1 member)
    simpa [MicChannel.expires, waiting] using younger

theorem MicChannel.InRange.countHop {c : MicChannel} (range : c.InRange) (stamp : Nat) : (c.countHop stamp).InRange := by
  obtain ⟨staging, sequence, lost, length, ring, position, hops, request, dropped⟩ := range
  unfold MicChannel.countHop
  split
  · refine ⟨staging, sequence, lost, length, ring, position, (by decide : 0 < Config.hopSamples), fun q member => ?_, dropped⟩
    rw [← Option.some.inj (Option.mem_def.1 member)]
    exact (by decide : 0 < Config.requestLife)
  next short =>
    have short : c.hopCount + 1 < Config.hopSamples := by simpa [MicChannel.hops] using short
    exact ⟨staging, sequence, lost, length, ring, position, short, request, dropped⟩

theorem preShift_bounds (x : BitVec 16) : -2048 ≤ preShift x ∧ preShift x ≤ 2047 := by
  have low := x.le_toInt
  have high := x.toInt_lt
  unfold preShift
  omega

theorem MicChannel.InRange.write {c : MicChannel} (range : c.InRange) (stamp : Nat) (x : BitVec 16) :
    (c.write stamp x).InRange := by
  obtain ⟨staging, sequence, lost, length, ring, position, hops, request, dropped⟩ := range
  refine MicChannel.InRange.countHop (MicChannel.InRange.ageRequest ?_) stamp
  refine ⟨staging, sequence, lost, (List.length_set ..).trans length, fun y member => ?_,
    Nat.mod_lt _ (by decide), hops, request, dropped⟩
  rcases List.mem_or_eq_of_mem_set member with old | rfl
  · exact ring y old
  · exact preShift_bounds x

theorem MicChannel.length_window {c : MicChannel} (ring : c.ring.length = Config.ringCells) (age : Nat) :
    (c.window age).length = Config.windowSamples := by
  have most : Config.windowSamples ≤ Config.ringCells := by decide
  simp only [MicChannel.window, List.length_take, List.length_append, List.length_drop, ring]
  omega

/-! ## The arbiter (R100) -/

theorem mem_arbiterOrder (last c : Channel) : c ∈ arbiterOrder last := by decide +revert

theorem State.nextWaiting_eq_none : s.nextWaiting = none ↔ ∀ c, (s.channel c).request = none := by
  simp only [State.nextWaiting, List.find?_eq_none, Option.not_isSome_iff_eq_none]
  exact ⟨fun none c => none c (mem_arbiterOrder _ c), fun none c _ => none c⟩

theorem State.request_of_nextWaiting {c : Channel} (next : s.nextWaiting = some c) :
    ∃ q, (s.channel c).request = some q := Option.isSome_iff_exists.1 (by simpa using List.find?_some next)

/-- The analysis that the arbiter starts for a channel (R100). -/
theorem State.startOn_eq {c : Channel} {q : AnalysisRequest} (waiting : (s.channel c).request = some q) :
    s.startOn c =
      { s.modChannel c (fun x => { x with request := none }) with
        engine := { s.engine with
          current := some ⟨c, q.stamp, false, (s.channel c).window q.age⟩, lastServed := c } } := by
  simp only [State.startOn, waiting]; rfl

theorem State.onMics_engine (s : State) (e : Engine) : s.OnMics { s with engine := e } :=
  ⟨fun _ => ⟨_, rfl⟩, fun _ => id, fun _ member _ => member, rfl, id, rfl, rfl⟩

theorem State.onMics_arbitrate : s.OnMics s.arbitrate := by
  unfold State.arbitrate
  split
  next c _ next =>
    obtain ⟨q, waiting⟩ := State.request_of_nextWaiting next
    rw [State.startOn_eq waiting]
    refine State.OnMics.trans (State.onMics_modChannel ?_) (State.onMics_engine _ _)
    rintro ⟨staging, sequence, lost, length, ring, position, hops, -, dropped⟩
    exact ⟨staging, sequence, lost, length, ring, position, hops, by simp, dropped⟩
  next => exact .refl s

/-- The arbiter leaves the engine in agreement with the requests that wait. -/
theorem State.engineAgrees_arbitrate (ranges : ∀ c, (s.channel c).InRange)
    (running : ∀ a ∈ s.engine.current, a.channel = s.engine.lastServed ∧ a.window.length = Config.windowSamples) :
    s.arbitrate.EngineAgrees := by
  unfold State.arbitrate
  split
  next c _ next =>
    obtain ⟨q, waiting⟩ := State.request_of_nextWaiting next
    rw [State.startOn_eq waiting]
    refine ⟨nofun, fun a member => ?_⟩
    rw [← Option.some.inj (Option.mem_def.1 member)]
    exact ⟨rfl, MicChannel.length_window (ranges c).2.2.2.1 q.age⟩
  next waits =>
    refine ⟨fun idle => State.nextWaiting_eq_none.1 ?_, running⟩
    cases next : s.nextWaiting with
    | none => rfl
    | some c => exact absurd next (waits c idle)

/-! ## A sample pair (R92 to R96) -/

theorem Link.follows_putMic (l : Link) (c : Channel) (x : MicCell) : l.Follows (l.putMic c x) := ⟨id, rfl, rfl⟩

theorem State.onMics_stage (s : State) (c : Channel) (x : BitVec 16) : s.OnMics (s.stage c x) := by
  unfold State.stage
  dsimp only
  split
  next =>
    have emptied : s.OnMics (s.modChannel c (MicChannel.nextCell (s.link.micWaiting.get c).isSome)) :=
      State.onMics_modChannel fun range => range.nextCell _
    refine emptied.trans ?_
    exact ⟨fun _ => ⟨_, rfl⟩, fun _ => id, fun _ member _ => member, rfl, Link.follows_putMic ..⟩
  next short =>
    refine State.onMics_modChannel fun range => ?_
    obtain ⟨-, others⟩ := range
    have short : (s.channel c).staging.length + 1 < Config.micCellSamples := by
      simpa [MicChannel.completesCell] using short
    exact ⟨by simpa using short, others⟩

/-- A staged sample leaves what the rings and the hops are read from. -/
theorem State.stage_channel (s : State) (c d : Channel) (x : BitVec 16) :
    ((s.stage c x).channel d).hopCount = (s.channel d).hopCount ∧
      ((s.stage c x).channel d).request = (s.channel d).request := by
  have kept (f : MicChannel → MicChannel) (hops : (f (s.channel c)).hopCount = (s.channel c).hopCount)
      (request : (f (s.channel c)).request = (s.channel c).request) :
      ((s.modChannel c f).channel d).hopCount = (s.channel d).hopCount ∧
        ((s.modChannel c f).channel d).request = (s.channel d).request := by
    rw [State.channel_modChannel]
    split
    next same => subst same; exact ⟨hops, request⟩
    next => exact ⟨rfl, rfl⟩
  unfold State.stage
  dsimp only
  split
  · exact kept (MicChannel.nextCell _) rfl rfl
  · exact kept _ rfl rfl

theorem State.stage_engine (s : State) (c : Channel) (x : BitVec 16) : (s.stage c x).engine = s.engine := by
  unfold State.stage; dsimp only; split <;> rfl

theorem State.onMics_write (s : State) (r : RoomId) (m : Mic) (x : BitVec 16) : s.OnMics (s.write r m x) := by
  unfold State.write
  split
  · exact State.onMics_modChannel fun range => range.write _ x
  · exact .refl s

theorem State.write_engine (s : State) (r : RoomId) (m : Mic) (x : BitVec 16) : (s.write r m x).engine = s.engine := by
  unfold State.write; split <;> rfl

theorem MicChannel.ageRequest_hopCount (c : MicChannel) : c.ageRequest.hopCount = c.hopCount := by
  unfold MicChannel.ageRequest; split <;> rfl

theorem MicChannel.write_request {c : MicChannel} (short : c.hops = false) (stamp : Nat) (x : BitVec 16)
    (empty : c.request = none) : (c.write stamp x).request = none := by
  have still (d : MicChannel) (same : d.hopCount = c.hopCount) (empty : d.request = none) :
      (d.ageRequest.countHop stamp).request = none := by
    have aged : d.ageRequest.request = none := by
      unfold MicChannel.ageRequest; split <;> simp [empty]
    have hops : d.ageRequest.hops = false := by
      rw [MicChannel.hops, MicChannel.ageRequest_hopCount, same]; exact short
    simp only [MicChannel.countHop, hops, Bool.false_eq_true, if_false]
    exact aged
  exact still { c with ring := c.ring.set c.writePos (preShift x), writePos := (c.writePos + 1) % Config.ringCells } rfl empty

/-- A sample that completes no hop raises no request. -/
theorem State.write_channel_request {m : Mic} (x : BitVec 16) (short : s.writes r m = true → (s.channel (channelOf r m)).hops = false)
    (d : Channel) (empty : (s.channel d).request = none) : ((s.write r m x).channel d).request = none := by
  unfold State.write
  split
  next goes =>
    rw [State.channel_modChannel]
    split
    next same => subst same; exact MicChannel.write_request (short goes) _ x empty
    next => exact empty
  next => exact empty

theorem State.write_channel_of_ne {m : Mic} (x : BitVec 16) {d : Channel} (other : d ≠ channelOf r m) :
    (s.write r m x).channel d = s.channel d := by
  unfold State.write
  split
  · rw [State.channel_modChannel, if_neg other]
  · rfl

/-- Whether samples go to a ring is read from what the microphones' channels do not hold. -/
theorem State.OnMics.writes {s t : State} (mics : s.OnMics t) (engine : t.engine = s.engine) (r : RoomId) (m : Mic) :
    t.writes r m = s.writes r m := by
  obtain ⟨p, room⟩ := mics.rooms r
  simp only [State.writes, room, engine]

theorem State.hopsOn_eq (s : State) (r : RoomId) (m : Mic) :
    s.hopsOn r m = (s.writes r m && (s.channel (channelOf r m)).hops) := by
  simp only [State.hopsOn, State.channel, roomOf_channelOf, micOf_channelOf]

theorem channelOf_mic_ne (r : RoomId) : channelOf r .mic2 ≠ channelOf r .mic1 := by decide +revert

/-- The part once both samples are staged. -/
def State.staged (r : RoomId) (x1 x2 : BitVec 16) (s : State) : State :=
  (s.stage (channelOf r .mic1) x1).stage (channelOf r .mic2) x2

/-- The part once both samples are staged and, where they go there, written. -/
def State.written (r : RoomId) (x1 x2 : BitVec 16) (s : State) : State :=
  ((s.staged r x1 x2).write r .mic1 x1).write r .mic2 x2

theorem State.samplePair_eq {x1 x2 : BitVec 16} (opened : (s.room r).phase ≠ .dark) :
    s.samplePair r x1 x2 =
      if s.hopsOn r .mic1 || s.hopsOn r .mic2 then (s.written r x1 x2).arbitrate else s.written r x1 x2 := by
  simp only [State.samplePair, opened, if_false]; rfl

theorem State.onMics_staged (s : State) (r : RoomId) (x1 x2 : BitVec 16) : s.OnMics (s.staged r x1 x2) :=
  (s.onMics_stage _ x1).trans (State.onMics_stage _ _ x2)

theorem State.staged_engine (s : State) (r : RoomId) (x1 x2 : BitVec 16) : (s.staged r x1 x2).engine = s.engine :=
  (State.stage_engine ..).trans (s.stage_engine ..)

theorem State.onMics_written (s : State) (r : RoomId) (x1 x2 : BitVec 16) : s.OnMics (s.written r x1 x2) :=
  ((s.onMics_staged r x1 x2).trans (State.onMics_write _ r .mic1 x1)).trans (State.onMics_write _ r .mic2 x2)

theorem State.written_engine (s : State) (r : RoomId) (x1 x2 : BitVec 16) : (s.written r x1 x2).engine = s.engine :=
  ((State.write_engine ..).trans (State.write_engine ..)).trans (s.staged_engine ..)

theorem State.staged_channel (s : State) (r : RoomId) (x1 x2 : BitVec 16) (d : Channel) :
    ((s.staged r x1 x2).channel d).hopCount = (s.channel d).hopCount ∧
      ((s.staged r x1 x2).channel d).request = (s.channel d).request := by
  obtain ⟨hops1, request1⟩ := s.stage_channel (channelOf r .mic1) d x1
  obtain ⟨hops2, request2⟩ := (s.stage (channelOf r .mic1) x1).stage_channel (channelOf r .mic2) d x2
  exact ⟨hops2.trans hops1, request2.trans request1⟩

/-- A sample pair that completes no hop raises no request. -/
theorem State.written_request {x1 x2 : BitVec 16} (short1 : s.hopsOn r .mic1 = false) (short2 : s.hopsOn r .mic2 = false)
    (d : Channel) (empty : (s.channel d).request = none) : ((s.written r x1 x2).channel d).request = none := by
  have staged := s.onMics_staged r x1 x2
  have hops (m : Mic) : ((s.staged r x1 x2).channel (channelOf r m)).hops = (s.channel (channelOf r m)).hops := by
    simp only [MicChannel.hops, (s.staged_channel r x1 x2 _).1]
  rw [State.hopsOn_eq, Bool.and_eq_false_imp] at short1 short2
  refine State.write_channel_request x2 (fun goes => ?_) d
    (State.write_channel_request x1 (fun goes => ?_) d ((s.staged_channel r x1 x2 d).2.trans empty))
  · rw [State.write_channel_of_ne x1 (channelOf_mic_ne r), hops]
    have same := ((State.onMics_write _ r .mic1 x1).writes (State.write_engine ..) r .mic2).trans
      (staged.writes (s.staged_engine r x1 x2) r .mic2)
    exact short2 (same.symm.trans goes)
  · rw [hops]
    exact short1 ((staged.writes (s.staged_engine r x1 x2) r _).symm.trans goes)

theorem State.keeps_samplePair (s : State) (r : RoomId) (x1 x2 : BitVec 16) : s.Keeps (s.samplePair r x1 x2) := by
  by_cases dark : (s.room r).phase = .dark
  · simp only [State.samplePair, dark, if_true]; exact .refl s
  rw [State.samplePair_eq dark]
  have written := s.onMics_written r x1 x2
  split
  next =>
    refine (written.trans State.onMics_arbitrate).keeps fun ranges agree => ?_
    refine State.engineAgrees_arbitrate (fun c => written.ranges c (ranges c)) ?_
    rw [State.written_engine]
    exact agree.2
  next short =>
    obtain ⟨short1, short2⟩ := Bool.or_eq_false_iff.1 (Bool.not_eq_true _ ▸ short)
    refine written.keeps fun _ agree => ?_
    refine agree.of_alike ?_ (State.written_request short1 short2)
    rw [State.written_engine]
    exact ⟨rfl, rfl⟩

theorem State.keeps_arrivalWhen (s : State) (due : State → Bool) (r : RoomId) (x1 x2 : BitVec 16) :
    s.Keeps (s.arrivalWhen due r x1 x2) := by
  unfold State.arrivalWhen
  split
  · exact s.keeps_samplePair r x1 x2
  · exact .refl s

/-! ## Completion of an analysis (R101) -/

theorem State.keeps_analysisComplete (s : State) : s.Keeps s.analysisComplete := by
  have next (e : Engine) (h : List HandOver) (idle : e.current = none)
      (messages : ∀ x ∈ h, x.isMessage = true → x ∈ s.handed) :
      s.Keeps ({ s with engine := e, handed := h } : State).arbitrate := by
    have set : s.OnMics { s with engine := e, handed := h } := ⟨fun _ => ⟨_, rfl⟩, fun _ => id, messages, rfl, id, rfl, rfl⟩
    refine (set.trans State.onMics_arbitrate).keeps fun ranges _ => State.engineAgrees_arbitrate ranges ?_
    simp [idle]
  unfold State.analysisComplete
  split
  next => exact .refl s
  next a _ =>
    dsimp only
    split
    · exact next { s.engine with current := none } s.handed rfl fun _ member _ => member
    · refine next { s.engine with current := none, residue := some (s.computed a).1 } _ rfl fun x member message => ?_
      rcases List.mem_append.1 member with old | new
      · exact old
      · rw [List.mem_singleton.1 new] at message; cases message

end Sys2Proof.Machine
end

section
/-! SUPPORT. What the intake, the commands, the resets and the link keep (R19 to R21, R40 to R43, R108, R164 to R168,
R175, R176). -/

namespace Sys2Proof.Machine

variable (s : State) (r : RoomId)

/-! ## Resets (R19, R20, R177) -/

theorem Room.start_agrees : Room.start.Agrees := by decide

theorem Room.start_recorded : Room.start.Recorded := by
  obtain ⟨roles, count, pictures⟩ := FrameManager.start_inOrder
  exact ⟨Singer.start_countsAgree, Singer.start_countsAgree, roles, count, pictures, by decide, by decide,
    MicChannel.start_inRange, MicChannel.start_inRange⟩

theorem Room.start_values : Room.start.ValuesInRange := by decide

/-- A part whose rooms, glyphs and engine are in their starting state, with nothing on its way. -/
structure State.Starts (s : State) : Prop where
  rooms : ∀ r, ∃ d, s.room r = Room.startShowing d
  glyphs : s.glyphs = GlyphStore.empty
  engine : s.engine = Engine.start
  handed : s.handed = []

theorem GlyphStore.empty_filled : GlyphStore.empty.Filled := by decide

theorem State.Starts.agreed {s : State} (starts : s.Starts) : s.Agreed := by
  refine ⟨fun r => ?_, fun r h => ?_, by simp [State.AwaitedAgree, starts.handed]⟩
  · obtain ⟨d, room⟩ := starts.rooms r
    rw [room]; exact (Room.keeps_compositor Room.start _).agrees Room.start_agrees
  · obtain ⟨d, room⟩ := starts.rooms r
    have offline : s.handset r h = HandsetRecord.offline := by
      rw [State.handset, room]
      simp [Room.startShowing, Room.start, RequestLine.start, Vector.get]
    rw [offline]; exact HandsetRecord.offline_inRange

theorem State.Starts.recorded {s : State} (starts : s.Starts) : s.Recorded := by
  have sizes (r : RoomId) : (s.room r).lyrics.lines = [] ∧ (s.room r).melody.notes = [] ∧ (s.room r).queue.entries = [] := by
    obtain ⟨d, room⟩ := starts.rooms r
    rw [room]; exact ⟨rfl, rfl, rfl⟩
  refine ⟨fun r => ?_, ⟨fun _ c => ?_, by simp [starts.engine, Engine.start]⟩, ?_, starts.glyphs ▸ GlyphStore.empty_filled⟩
  · obtain ⟨d, room⟩ := starts.rooms r
    rw [room]; exact (Room.keeps_compositor Room.start _).recorded Room.start_recorded
  · obtain ⟨d, room⟩ := starts.rooms (roomOf c)
    rw [State.channel, room]
    cases micOf c <;> rfl
  · simp [State.PoolsAgree, State.linesUsed, State.syllablesUsed, State.notesUsed, State.entriesUsed, State.total,
      Lyrics.lineCount, Lyrics.syllableCount, sizes]

theorem State.Starts.valued {s : State} (starts : s.Starts) : s.Valued := by
  refine ⟨fun r => ?_, by simp [State.PresetsInRange, starts.handed]⟩
  obtain ⟨d, room⟩ := starts.rooms r
  rw [room]; exact (Room.keeps_compositor Room.start _).values Room.start_values

/-- Whatever stood before, a part in its starting state is in order. -/
theorem State.Starts.keeps {s t : State} (starts : t.Starts) (queues : t.link.QueuesAgree)
    (line : t.link.resetLine = s.link.resetLine) : s.Keeps t :=
  ⟨fun _ => starts.agreed, fun _ => starts.recorded, fun _ => starts.valued, fun _ => queues, line⟩

theorem State.starts_startingState (line : Bool) (cause : ReadyCause) : (s.startingState line cause).Starts := by
  refine ⟨fun r => ⟨Compositor.start.display, ?_⟩, rfl, rfl, rfl⟩
  simp [State.room, State.startingState, Vector.get, Room.startShowing, Room.start]

theorem Link.start_queuesAgree (up line : Bool) (cause : ReadyCause) : (Link.start up line cause).QueuesAgree := by
  simp [Link.start, Link.QueuesAgree, Config.noticePlaces]

theorem State.starts_deviceReset (cause : ReadyCause) : (s.deviceReset cause).Starts := by
  obtain ⟨rooms, glyphs, engine, handed⟩ := s.starts_startingState false cause
  exact ⟨rooms, glyphs, engine, handed⟩

theorem State.deviceReset_queuesAgree (cause : ReadyCause) : (s.deviceReset cause).link.QueuesAgree :=
  Link.enter_queuesAgree (by decide) (Link.start_queuesAgree s.link.up false cause)

theorem State.deviceReset_resetLine (cause : ReadyCause) : (s.deviceReset cause).link.resetLine = false := by
  simp [State.deviceReset, State.raiseReady, State.startingState, Link.start]

theorem State.starts_resetByCommand : s.resetByCommand.Starts := by
  refine ⟨fun r => ?_, rfl, rfl, rfl⟩
  fin_cases r <;> exact ⟨_, rfl⟩

theorem State.keeps_resetByCommand {s : State} (released : s.link.resetLine = false) : s.Keeps s.resetByCommand :=
  s.starts_resetByCommand.keeps (s.deviceReset_queuesAgree .resetCommand)
    ((s.deviceReset_resetLine .resetCommand).trans released.symm)

theorem State.keeps_powerOn : s.Keeps s.powerOn := by
  unfold State.powerOn
  split
  next asserted =>
    exact (s.starts_startingState true .powerOn).keeps (Link.start_queuesAgree ..) asserted.symm
  next released =>
    exact (s.starts_deviceReset .powerOn).keeps (s.deviceReset_queuesAgree .powerOn)
      ((s.deviceReset_resetLine .powerOn).trans (by simpa using released : s.link.resetLine = false).symm)

theorem State.evolves_firstFrames : s.Evolves s.firstFrames := by
  refine { rooms := fun r => ?_ }
  have room : s.firstFrames.room r = (s.room r).frameStart s.glyphs := by
    simp [State.firstFrames, State.room, Vector.get, -Fin.val_cast]
    rfl
  rw [room]
  exact Room.keeps_frameStart ..

/-! ## The link (R21, R164, R175, R176) -/

theorem Link.queuesAgree_of_same {l m : Link} (agree : l.QueuesAgree) (results : m.results = l.results)
    (notices : m.notices = l.notices) (pending : m.pendingPairs = l.pendingPairs) : m.QueuesAgree := by
  simpa only [Link.QueuesAgree, results, notices, pending] using agree

theorem State.evolves_linkGoesDown : s.Evolves s.linkGoesDown := by
  unfold State.linkGoesDown
  split
  · exact { link := ⟨fun agree => Link.queuesAgree_of_same agree rfl rfl rfl, rfl, rfl⟩ }
  · exact { link := ⟨fun agree => Link.queuesAgree_of_same agree rfl rfl rfl, rfl, rfl⟩ }

theorem State.evolves_linkUp : s.Evolves s.linkUp := by
  unfold State.linkUp State.settleReady
  refine .ite (fun _ => .refl s) fun _ => ?_
  have up : s.Evolves { s with link := { s.link with up := true } } :=
    { link := ⟨fun agree => Link.queuesAgree_of_same agree rfl rfl rfl, rfl, rfl⟩ }
  refine .ite (fun _ => up) fun _ => up.trans ?_
  exact
    { link :=
        ⟨fun agree => Link.enter_queuesAgree (by decide) (Link.queuesAgree_of_same agree rfl rfl rfl), Link.enter_results ..,
          Link.enter_resetLine ..⟩ }

theorem Link.follows_sent (l : Link) : l.Follows l.sent := by
  unfold Link.sent
  split
  · exact ⟨fun agree => Link.queuesAgree_of_same agree rfl rfl rfl, rfl, rfl⟩
  · exact ⟨id, rfl, rfl⟩

/-! ## Glyphs and pitch cells (R40 to R43, R108) -/

theorem length_flatMap_unpackPixels (bs : List Byte) : (bs.flatMap unpackPixels).length = 4 * bs.length := by
  induction bs with
  | nil => rfl
  | cons b bs ih => rw [List.flatMap_cons, List.length_append, ih]; simp [unpackPixels]; omega

/-- What a well-formed GLYPH_LOAD carries (R41). -/
theorem readGlyph_some {args : List Byte} {x : GlyphRecord} (read : readGlyph args = some x) :
    x.code ≤ 1023 ∧ 4 ≤ x.width ∧ x.width ≤ 48 ∧ x.pixels.length = Config.glyphRows * x.width := by
  unfold readGlyph at read
  dsimp only at read
  split at read
  next good =>
    obtain ⟨header, code, low, high, length⟩ := good
    rw [← Option.some.inj read]
    refine ⟨code, low, high, ?_⟩
    simp only [length_flatMap_unpackPixels, List.length_drop, length, Config.glyphRows]
    omega
  next => cases read

theorem setEntry_rising {code : Nat} {e : GlyphEntry} {t : List (Nat × GlyphEntry)}
    (rising : t.Pairwise fun x y => x.1 < y.1) : (setEntry code e t).Pairwise fun x y => x.1 < y.1 := by
  refine List.pairwise_append.2 ⟨rising.filter _, List.pairwise_cons.2 ⟨fun x member => ?_, rising.filter _⟩, fun x before y after => ?_⟩
  · simpa using List.of_mem_filter member
  · have low : x.1 < code := by simpa using List.of_mem_filter before
    rcases List.mem_cons.1 after with rfl | behind
    · exact low
    · exact low.trans (by simpa using List.of_mem_filter behind)

theorem mem_setEntry {code : Nat} {e : GlyphEntry} {t : List (Nat × GlyphEntry)} {x : Nat × GlyphEntry}
    (member : x ∈ setEntry code e t) : x = (code, e) ∨ x ∈ t := by
  rcases List.mem_append.1 member with before | after
  · exact .inr (List.mem_of_mem_filter before)
  · exact (List.mem_cons.1 after).imp_right List.mem_of_mem_filter

theorem GlyphStore.Filled.load {g : GlyphStore} (filled : g.Filled) {x : GlyphRecord} (code : x.code ≤ 1023) (low : 4 ≤ x.width)
    (high : x.width ≤ 48) (pixels : x.pixels.length = Config.glyphRows * x.width)
    (fits : g.fill + Config.glyphRows * x.width ≤ Config.glyphCells) : (g.load x).Filled := by
  obtain ⟨-, wf, below, rising, entries⟩ := filled
  refine ⟨fits, memWrite_wf wf _ _, fun c member => ?_, setEntry_rising rising, fun y member => ?_⟩
  · have bound : c.1 < g.fill + x.pixels.length := by
      rcases List.mem_append.1 member with earlier | behind
      · rcases List.mem_append.1 earlier with old | new
        · have := below c (List.mem_of_mem_filter old); omega
        · exact (memBlock_mem _ _ _ c new).2.1
      · have := below c (List.mem_of_mem_filter behind)
        omega
    rwa [pixels] at bound
  · rcases mem_setEntry member with rfl | old
    · exact ⟨code, low, high, le_rfl⟩
    · obtain ⟨code', low', high', last'⟩ := entries y old
      exact ⟨code', low', high', last'.trans (Nat.le_add_right ..)⟩

/-- A glyph store in order put in the place of another. -/
theorem State.keeps_glyphs {s : State} {g : GlyphStore} (filled : s.glyphs.Filled → g.Filled) : s.Keeps { s with glyphs := g } :=
  ⟨id, fun ⟨rooms, engine, pools, before⟩ => ⟨rooms, engine, pools, filled before⟩, id, id, rfl⟩

theorem State.keeps_glyphLoad (args : List Byte) :
    s.Keeps (s.glyphLoad args).1 ∧ (s.glyphLoad args).1.link.results = s.link.results := by
  unfold State.glyphLoad
  split
  next => exact ⟨.refl s, rfl⟩
  next x read =>
    obtain ⟨code, low, high, pixels⟩ := readGlyph_some read
    split
    next => exact ⟨.refl s, rfl⟩
    next fits => exact ⟨State.keeps_glyphs fun filled => filled.load code low high pixels (not_lt.1 fits), rfl⟩

theorem State.keeps_glyphClear : s.Keeps s.glyphClear.1 ∧ s.glyphClear.1.link.results = s.link.results := by
  unfold State.glyphClear
  split
  · exact ⟨.refl s, rfl⟩
  · exact ⟨State.keeps_glyphs fun _ => GlyphStore.empty_filled, rfl⟩

theorem State.keeps_pitchCells (args : List Byte) :
    s.Keeps (s.pitchCells args).1 ∧ (s.pitchCells args).1.link.results = s.link.results := by
  unfold State.pitchCells
  split
  next => exact ⟨.refl s, rfl⟩
  split
  next => exact ⟨.refl s, rfl⟩
  next =>
    split
    · exact ⟨State.Evolves.keeps {}, rfl⟩
    · exact ⟨.refl s, rfl⟩

/-! ## Commands (R166 to R168) -/

theorem Link.answer_queuesAgree {l : Link} (agree : l.QueuesAgree) (room : l.results.length < Config.resultPlaces)
    (x : Result) : (l.answer x).QueuesAgree := by
  obtain ⟨-, others⟩ := agree
  refine ⟨?_, others⟩
  simp only [Link.answer, List.length_append, List.length_singleton]
  omega

theorem State.Keeps.answer {s t : State} (keeps : s.Keeps t) (room : t.link.results.length < Config.resultPlaces)
    (x : Result) : s.Keeps (t.answer x) :=
  ⟨keeps.agreed, keeps.recorded, keeps.valued, fun agree => Link.answer_queuesAgree (keeps.queues agree) room x, keeps.line⟩

theorem Link.credit_iff {l : Link} :
    l.credit = true ↔ l.up = true ∧ l.resetLine = false ∧ l.results.length < Config.resultPlaces := by
  simp [Link.credit, and_assoc]

theorem State.lyricLine_results (args : List Byte) : (s.lyricLine r args).1.link.results = s.link.results := by
  have accepted (f : Lyrics → Lyrics) : (s.acceptLine r f).link.results = s.link.results := by
    unfold State.acceptLine
    dsimp only
    split
    · exact (State.evolves_evaluate _ r).link.results
    · rfl
  unfold State.lyricLine
  split
  · rfl
  split
  · rfl
  split
  · split
    · rfl
    split
    · rfl
    split
    · rfl
    · exact accepted _
  · split
    · rfl
    split
    · rfl
    · exact accepted _

theorem State.noteEvents_results (args : List Byte) : (s.noteEvents r args).1.link.results = s.link.results := by
  unfold State.noteEvents
  split
  · rfl
  split
  · rfl
  split
  · rfl
  split
  · rfl
  · rfl

theorem State.resetRoom_results : (s.resetRoom r).link.results = s.link.results := by
  rw [State.resetRoom_eq]
  exact (s.link.follows_hearClose r (s.room r)).results

/-- What the owner of a room command does keeps the part in order and the results as they stand. -/
theorem RoomCommand.keeps_carry (c : RoomCommand) (args : List Byte) :
    s.Keeps (c.carry r args s).1 ∧ (c.carry r args s).1.link.results = s.link.results := by
  have of_evolves {t : State} (evolves : s.Evolves t) : s.Keeps t ∧ t.link.results = s.link.results :=
    ⟨evolves.keeps, evolves.link.results⟩
  cases c with
  | roomOpen => exact of_evolves (s.evolves_roomOpen r)
  | roomClose => exact of_evolves (s.evolves_closeRoom r)
  | roomReset => exact ⟨s.keeps_resetRoom r, s.resetRoom_results r⟩
  | roomSettings => exact of_evolves (s.evolves_roomSettings r args)
  | noticeMask => exact of_evolves (s.evolves_noticeMask r args)
  | bandTable => exact of_evolves (s.evolves_bandTable r args)
  | palette => exact of_evolves (s.evolves_palette r args)
  | lyricLine => exact ⟨s.keeps_lyricLine r args, s.lyricLine_results r args⟩
  | noteEvents => exact ⟨s.keeps_noteEvents r args, s.noteEvents_results r args⟩
  | songOpen => exact of_evolves (s.evolves_songOpen r _ _ _)
  | songRefuse => exact of_evolves (s.evolves_songRefuse r _)
  | songStart => exact of_evolves (s.evolves_songStart r _)
  | songEnd => exact of_evolves (s.evolves_songEnd r)
  | pause => exact of_evolves (s.evolves_pauseSong r)
  | resume => exact of_evolves (s.evolves_resumeSong r)
  | skip => exact of_evolves (s.evolves_skipSong r)
  | setTempo => exact of_evolves (s.evolves_setTempo r _)
  | offerPoll => exact of_evolves (s.evolves_offerPoll r)
  | queueRemove => exact of_evolves (s.evolves_queueRemove r _)
  | queueMove => exact of_evolves (s.evolves_queueMove r _ _)

section
variable {s : State} (credit : s.link.credit = true)
include credit

theorem State.keeps_answer (x : Result) : s.Keeps (s.answer x) :=
  (State.Keeps.refl s).answer (Link.credit_iff.1 credit).2.2 x

theorem DeviceCommand.keeps_carry (c : DeviceCommand) (tag : Byte) (args : List Byte) : s.Keeps (c.carry tag args s) := by
  obtain ⟨-, released, room⟩ := Link.credit_iff.1 credit
  have answered {t : State} (kept : s.Keeps t ∧ t.link.results = s.link.results) (x : Result) : s.Keeps (t.answer x) :=
    kept.1.answer (kept.2 ▸ room) x
  cases c with
  | deviceReset => exact State.keeps_resetByCommand released
  | statusQuery => exact State.keeps_answer credit _
  | glyphLoad => exact answered (s.keeps_glyphLoad args) _
  | glyphClear => exact answered s.keeps_glyphClear _
  | pitchCells => exact answered (s.keeps_pitchCells args) _

theorem State.keeps_takeCommand (c : Command) (room tag : Byte) (args : List Byte) : s.Keeps (s.takeCommand c room tag args) := by
  have refused (x : Result) := State.keeps_answer credit x
  cases c with
  | device d =>
    simp only [State.takeCommand]
    split
    · exact refused _
    split
    · exact refused _
    · exact d.keeps_carry credit tag args
  | room k =>
    simp only [State.takeCommand]
    split
    · exact refused _
    split
    · exact refused _
    · obtain ⟨kept, results⟩ := k.keeps_carry s _ args
      exact kept.answer (results ▸ (Link.credit_iff.1 credit).2.2) _

theorem State.keeps_takeControl (room tag : Byte) (payload : List Byte) : s.Keeps (s.takeControl room tag payload) := by
  unfold State.takeControl
  split
  next => exact State.keeps_answer credit _
  next =>
    split
    · exact State.keeps_answer credit _
    · exact State.keeps_takeCommand credit ..

theorem State.keeps_takeCell (c : DownCell) : s.Keeps (s.takeCell c) := by
  have discarded : s.Keeps s.discardCell :=
    State.Evolves.keeps { link := ⟨fun agree => Link.queuesAgree_of_same agree rfl rfl rfl, rfl, rfl⟩ }
  unfold State.takeCell
  split
  next =>
    unfold State.takeVideoCell
    split
    · exact (s.evolves_hand rfl).keeps
    · exact discarded
  split
  next =>
    unfold State.takeMarkCell
    split
    · split
      · exact (s.evolves_hand rfl).keeps
      · exact discarded
    · exact discarded
  split
  · exact State.keeps_takeControl credit ..
  · exact State.keeps_answer credit _

end

theorem State.keeps_takeFromLink : s.Keeps s.takeFromLink := by
  unfold State.takeFromLink
  split
  next c rest _ =>
    split
    next credit =>
      exact State.Keeps.trans (State.Evolves.keeps {}) (State.keeps_takeCell (s := { s with onLink := rest }) credit c)
    next => exact .refl s
  next => exact .refl s

theorem State.keeps_arrive (bytes : List Byte) : s.Keeps (s.arrive bytes) :=
  State.Keeps.trans (State.Evolves.keeps {}) (State.keeps_takeFromLink _)

theorem State.keeps_command (c : Command) (room tag : Byte) (args : List Byte) : s.Keeps (s.command c room tag args) := by
  unfold State.command
  split
  next credit => exact State.keeps_takeCommand (Bool.and_eq_true_iff.1 credit).1 c room tag args
  next => exact s.keeps_arrive _

end Sys2Proof.Machine
end

section
/-! SUPPORT. What one step keeps of the whole part: every event but those of the reset line keeps the four agreements and
the level of that line, and in its assertion nothing but its release leaves the reset state (R20). -/

namespace Sys2Proof.Machine

variable {s : State}

/-! ## Every event -/

theorem State.keeps_takeHanded {α : Type} (f : HandOver → Option α) {act : α → State → State}
    (keeps : ∀ x (t : State), t.Keeps (act x t)) (s : State) : s.Keeps (s.takeHanded f act) := by
  unfold State.takeHanded
  split
  next x rest taken => exact (s.evolves_handed (State.mem_of_takeFirst taken).2).keeps.trans (keeps x _)
  next => exact .refl s

theorem State.Keeps.unlessReset {t : State} (keeps : s.Keeps t) : s.Keeps (s.unlessReset t) := by
  unfold State.unlessReset
  split
  · exact .refl s
  · exact keeps

theorem State.keeps_frameCompletion (s : State) (r : RoomId) : s.Keeps (s.frameCompletion r) := by
  unfold State.frameCompletion
  split
  next p rest taken =>
    split
    next =>
      have left := s.evolves_handed (State.mem_of_takeFirst taken).2
      exact (left.trans (State.evolves_modRoom (Room.keeps_takeVideo _ p))).keeps
    next => exact .refl s
  next => exact .refl s

/-- Every event but those of the reset line keeps what the steps keep (R19 to R178). -/
theorem exec_keeps (c : Instr) (s : State) (assert : c ≠ .resetLineAssert) (release : c ≠ .resetLineRelease) :
    ∃ u, exec c s = finish u ∧ s.Keeps u := by
  cases c with
  | resetLineAssert => exact absurd rfl assert
  | resetLineRelease => exact absurd rfl release
  | powerOn => exact ⟨_, rfl, s.keeps_powerOn⟩
  | linkDown lastBytes => exact ⟨_, rfl, State.Keeps.trans (State.Evolves.keeps {}) (State.evolves_linkGoesDown _).keeps⟩
  | linkUp => exact ⟨_, rfl, s.evolves_linkUp.keeps⟩
  | uplinkFree => exact ⟨_, rfl, (s.evolves_link s.link.follows_sent).keeps⟩
  | cellIntake bytes => exact ⟨_, rfl, s.keeps_arrive bytes⟩
  | video r =>
    exact ⟨_, rfl, State.keeps_takeHanded _ (fun p t => (State.evolves_modRoom (Room.keeps_takeVideo _ p)).keeps) s⟩
  | timeMark r => exact ⟨_, rfl, State.keeps_takeHanded _ (fun p t => (t.evolves_timeMark r p).keeps) s⟩
  | keyDetent r => exact ⟨_, rfl, State.keeps_takeHanded _ (fun d t => (t.evolves_takeDetent r d).keeps) s⟩
  | endGuard r => exact ⟨_, rfl, State.keeps_takeHanded _ (fun n t => (t.evolves_testGuard r n).keeps) s⟩
  | evaluation r => exact ⟨_, rfl, State.keeps_takeHanded _ (fun j t => (t.evolves_evaluationTaken r j).keeps) s⟩
  | pass r =>
    exact ⟨_, rfl, State.keeps_takeHanded _ (fun n t => (State.evolves_modRoom (Room.keeps_passNotes _ n)).keeps) s⟩
  | analysisResult => exact ⟨_, rfl, State.keeps_takeHanded _ (fun x t => (t.evolves_resultTaken x).keeps) s⟩
  | deviceReset b tag args => exact ⟨_, rfl, s.keeps_command ..⟩
  | statusQuery b tag args => exact ⟨_, rfl, s.keeps_command ..⟩
  | roomOpen b tag args => exact ⟨_, rfl, s.keeps_command ..⟩
  | roomClose b tag args => exact ⟨_, rfl, s.keeps_command ..⟩
  | roomReset b tag args => exact ⟨_, rfl, s.keeps_command ..⟩
  | roomSettings b tag args => exact ⟨_, rfl, s.keeps_command ..⟩
  | noticeMask b tag args => exact ⟨_, rfl, s.keeps_command ..⟩
  | bandTable b tag args => exact ⟨_, rfl, s.keeps_command ..⟩
  | palette b tag args => exact ⟨_, rfl, s.keeps_command ..⟩
  | glyphLoad b tag args => exact ⟨_, rfl, s.keeps_command ..⟩
  | glyphClear b tag args => exact ⟨_, rfl, s.keeps_command ..⟩
  | pitchCells b tag args => exact ⟨_, rfl, s.keeps_command ..⟩
  | lyricLine b tag args => exact ⟨_, rfl, s.keeps_command ..⟩
  | noteEvents b tag args => exact ⟨_, rfl, s.keeps_command ..⟩
  | songOpen b tag args => exact ⟨_, rfl, s.keeps_command ..⟩
  | songRefuse b tag args => exact ⟨_, rfl, s.keeps_command ..⟩
  | songStart b tag args => exact ⟨_, rfl, s.keeps_command ..⟩
  | songEnd b tag args => exact ⟨_, rfl, s.keeps_command ..⟩
  | pause b tag args => exact ⟨_, rfl, s.keeps_command ..⟩
  | resume b tag args => exact ⟨_, rfl, s.keeps_command ..⟩
  | skip b tag args => exact ⟨_, rfl, s.keeps_command ..⟩
  | setTempo b tag args => exact ⟨_, rfl, s.keeps_command ..⟩
  | offerPoll b tag args => exact ⟨_, rfl, s.keeps_command ..⟩
  | queueRemove b tag args => exact ⟨_, rfl, s.keeps_command ..⟩
  | queueMove b tag args => exact ⟨_, rfl, s.keeps_command ..⟩
  | timelineTick r a b => exact ⟨_, rfl, (s.evolves_tick r a b).keeps.unlessReset⟩
  | markTimerExpiry r => exact ⟨_, rfl, (s.evolves_markExpiry r).keeps⟩
  | cueTimerExpiry r => exact ⟨_, rfl, (s.evolves_cueExpiry r).keeps⟩
  | resultHoldExpiry r => exact ⟨_, rfl, (s.evolves_holdExpiry r).keeps⟩
  | videoStaleExpiry r => exact ⟨_, rfl, (s.evolves_staleExpiry r).keeps⟩
  | offerTimerExpiry r => exact ⟨_, rfl, (s.evolves_offerExpiry r).keeps⟩
  | frameCompletion r => exact ⟨_, rfl, s.keeps_frameCompletion r⟩
  | outputFrameStart r => exact ⟨_, rfl, (State.evolves_modRoom (Room.keeps_frameStart _ _)).keeps.unlessReset⟩
  | samplePair r x1 x2 => exact ⟨_, rfl, (s.keeps_samplePair r x1 x2).unlessReset⟩
  | micCellComplete x => exact ⟨_, rfl, (s.keeps_arrivalWhen _ _ _ _).unlessReset⟩
  | hopComplete x => exact ⟨_, rfl, (s.keeps_arrivalWhen _ _ _ _).unlessReset⟩
  | requestExpiry x => exact ⟨_, rfl, (s.keeps_arrivalWhen _ _ _ _).unlessReset⟩
  | analysisComplete => exact ⟨_, rfl, s.keeps_analysisComplete⟩
  | pollSlot r => exact ⟨_, rfl, (s.keeps_pollSlot r).unlessReset⟩
  | replyWindowClose r => exact ⟨_, rfl, (s.keeps_closeWindow r).unlessReset⟩
  | handsetReply r chars => exact ⟨_, rfl, (s.keeps_handsetReply r chars).unlessReset⟩
  | handsetOffline r h => exact ⟨_, rfl, (s.keeps_thirdMiss r h).unlessReset⟩
  | request r => exact ⟨_, rfl, s.keeps_request r⟩
  | cancel r => exact ⟨_, rfl, s.keeps_cancel r⟩

/-- The events of the reset line keep the agreements too: the part starts anew, or the line was not asserted. -/
theorem exec_resetLine_keeps {c : Instr} (s : State) (line : c = .resetLineAssert ∨ c = .resetLineRelease) :
    ∃ u, exec c s = finish u ∧ (s.Agreed → u.Agreed) ∧ (s.Recorded → u.Recorded) ∧ (s.Valued → u.Valued) ∧
      (s.link.QueuesAgree → u.link.QueuesAgree) := by
  rcases line with rfl | rfl
  · have starts := s.starts_startingState true .resetLine
    exact ⟨_, rfl, fun _ => starts.agreed, fun _ => starts.recorded, fun _ => starts.valued,
      fun _ => Link.start_queuesAgree ..⟩
  · refine ⟨_, rfl, ?_⟩
    unfold State.releaseReset
    split
    next =>
      have starts := s.starts_deviceReset .resetLine
      have drawn := (State.evolves_firstFrames (s.deviceReset .resetLine)).keeps
      exact ⟨fun _ => drawn.agreed starts.agreed, fun _ => drawn.recorded starts.recorded,
        fun _ => drawn.valued starts.valued, fun _ => drawn.queues (s.deviceReset_queuesAgree .resetLine)⟩
    next => exact ⟨id, id, id, id⟩

/-- A step leaves the state that an event leaves, once the uplink has chosen, and that event keeps the agreements. -/
theorem step_keeps {s t : State} (stepped : step s = .next t) :
    (s.Agreed → t.Agreed) ∧ (s.Recorded → t.Recorded) ∧ (s.Valued → t.Valued) ∧
      (s.link.QueuesAgree → t.link.QueuesAgree) := by
  unfold step at stepped
  split at stepped
  next =>
    obtain rfl : s = t := Host.Outcome.next.inj stepped
    exact ⟨id, id, id, id⟩
  next c cs _ =>
    have kept : ∃ u, exec c { s with pending := cs } = finish u ∧ (s.Agreed → u.Agreed) ∧ (s.Recorded → u.Recorded) ∧
        (s.Valued → u.Valued) ∧ (s.link.QueuesAgree → u.link.QueuesAgree) := by
      by_cases line : c = .resetLineAssert ∨ c = .resetLineRelease
      · exact exec_resetLine_keeps { s with pending := cs } line
      · obtain ⟨assert, release⟩ := not_or.1 line
        obtain ⟨u, left, keeps⟩ := exec_keeps c { s with pending := cs } assert release
        exact ⟨u, left, keeps.agreed, keeps.recorded, keeps.valued, keeps.queues⟩
    obtain ⟨u, left, agreed, recorded, valued, queues⟩ := kept
    obtain rfl : u.startUplink = t := Host.Outcome.next.inj (left.symm.trans stepped)
    rw [State.startUplink_eq]
    refine ⟨agreed, recorded, valued, fun agree => ?_⟩
    exact State.startUplink_eq u ▸ State.startUplink_queuesAgree (queues agree)

/-! ## The reset state (R20) -/

/-- The reset state, with nothing to send (R20). -/
abbrev State.InReset (s : State) : Prop :=
  s.rooms = Vector.replicate 4 Room.start ∧ s.glyphs = GlyphStore.empty ∧ s.engine = Engine.start ∧ s.handed = [] ∧
    s.link.results = [] ∧ s.link.notices = [] ∧ s.link.pendingPairs = [] ∧ s.link.transmit = none ∧
    s.link.micWaiting = Vector.replicate 8 none

theorem State.InReset.room (held : s.InReset) (r : RoomId) : s.room r = Room.start := by
  simp [State.room, held.1, Vector.get]

theorem State.InReset.handed (held : s.InReset) : s.handed = [] := held.2.2.2.1

theorem State.inReset_startingState (s : State) (cause : ReadyCause) : (s.startingState true cause).InReset :=
  ⟨rfl, rfl, rfl, rfl, rfl, rfl, rfl, rfl, rfl⟩

section
variable (asserted : s.link.resetLine = true)
include asserted

theorem State.credit_of_asserted : s.link.credit = false := by simp [Link.credit, asserted]

theorem State.arrive_of_asserted (bytes : List Byte) : s.arrive bytes = { s with onLink := s.onLink ++ bytes } := by
  unfold State.arrive State.takeFromLink
  split
  next => rw [if_neg (by simpa using State.credit_of_asserted asserted)]
  next => rfl

theorem State.unlessReset_of_asserted (t : State) : s.unlessReset t = s := if_pos asserted

/-- A command waits on the link, and nothing else is changed (R20, R164). -/
theorem State.inReset_command (held : s.InReset) (c : Command) (room tag : Byte) (args : List Byte) :
    (s.command c room tag args).InReset := by
  have waits : s.takesCells = false := by simp [State.takesCells, State.credit_of_asserted asserted]
  rw [State.command, waits, if_neg (by simp), State.arrive_of_asserted asserted]
  exact held

theorem State.inReset_linkGoesDown (held : s.InReset) : s.linkGoesDown.InReset := by
  have stays : s.arriving = false := by simp [State.arriving, State.credit_of_asserted asserted]
  rw [State.linkGoesDown, stays, if_neg (by simp)]
  exact held

theorem State.inReset_linkUp (held : s.InReset) : s.linkUp.InReset := by
  unfold State.linkUp
  split
  · exact held
  · rw [State.settleReady, if_pos (by simp [asserted])]
    exact held

end

/-- With nothing handed on nothing is taken. -/
theorem State.takeHanded_of_nil {α : Type} (f : HandOver → Option α) (act : α → State → State) (none : s.handed = []) :
    s.takeHanded f act = s := by
  simp only [State.takeHanded, none, takeFirst]

/-- In an assertion of the reset line only its release leaves the reset state (R20). -/
theorem exec_inReset {c : Instr} (release : c ≠ .resetLineRelease) (asserted : s.link.resetLine = true) (held : s.InReset) :
    ∃ u, exec c s = finish u ∧ u.InReset := by
  have nothing {α : Type} (f : HandOver → Option α) (act : α → State → State) : (s.takeHanded f act).InReset := by
    rw [State.takeHanded_of_nil f act held.handed]; exact held
  have ignored (t : State) : (s.unlessReset t).InReset := by
    rw [State.unlessReset_of_asserted asserted]; exact held
  have waits := State.inReset_command asserted held
  have same {t : State} (is : t = s) : t.InReset := is ▸ held
  cases c with
  | resetLineRelease => exact absurd rfl release
  | resetLineAssert => exact ⟨_, rfl, s.inReset_startingState _⟩
  | powerOn =>
    refine ⟨_, rfl, ?_⟩
    rw [State.powerOn, asserted, if_pos rfl]
    exact s.inReset_startingState _
  | linkDown lastBytes => exact ⟨_, rfl, State.inReset_linkGoesDown (s := { s with onLink := _ }) asserted held⟩
  | linkUp => exact ⟨_, rfl, State.inReset_linkUp asserted held⟩
  | uplinkFree => exact ⟨_, rfl, same (by simp [Link.sent, asserted])⟩
  | cellIntake bytes => exact ⟨_, rfl, by rw [State.arrive_of_asserted asserted]; exact held⟩
  | video r => exact ⟨_, rfl, nothing _ _⟩
  | timeMark r => exact ⟨_, rfl, nothing _ _⟩
  | keyDetent r => exact ⟨_, rfl, nothing _ _⟩
  | endGuard r => exact ⟨_, rfl, nothing _ _⟩
  | evaluation r => exact ⟨_, rfl, nothing _ _⟩
  | pass r => exact ⟨_, rfl, nothing _ _⟩
  | analysisResult => exact ⟨_, rfl, nothing _ _⟩
  | deviceReset b tag args => exact ⟨_, rfl, waits ..⟩
  | statusQuery b tag args => exact ⟨_, rfl, waits ..⟩
  | roomOpen b tag args => exact ⟨_, rfl, waits ..⟩
  | roomClose b tag args => exact ⟨_, rfl, waits ..⟩
  | roomReset b tag args => exact ⟨_, rfl, waits ..⟩
  | roomSettings b tag args => exact ⟨_, rfl, waits ..⟩
  | noticeMask b tag args => exact ⟨_, rfl, waits ..⟩
  | bandTable b tag args => exact ⟨_, rfl, waits ..⟩
  | palette b tag args => exact ⟨_, rfl, waits ..⟩
  | glyphLoad b tag args => exact ⟨_, rfl, waits ..⟩
  | glyphClear b tag args => exact ⟨_, rfl, waits ..⟩
  | pitchCells b tag args => exact ⟨_, rfl, waits ..⟩
  | lyricLine b tag args => exact ⟨_, rfl, waits ..⟩
  | noteEvents b tag args => exact ⟨_, rfl, waits ..⟩
  | songOpen b tag args => exact ⟨_, rfl, waits ..⟩
  | songRefuse b tag args => exact ⟨_, rfl, waits ..⟩
  | songStart b tag args => exact ⟨_, rfl, waits ..⟩
  | songEnd b tag args => exact ⟨_, rfl, waits ..⟩
  | pause b tag args => exact ⟨_, rfl, waits ..⟩
  | resume b tag args => exact ⟨_, rfl, waits ..⟩
  | skip b tag args => exact ⟨_, rfl, waits ..⟩
  | setTempo b tag args => exact ⟨_, rfl, waits ..⟩
  | offerPoll b tag args => exact ⟨_, rfl, waits ..⟩
  | queueRemove b tag args => exact ⟨_, rfl, waits ..⟩
  | queueMove b tag args => exact ⟨_, rfl, waits ..⟩
  | timelineTick r a b => exact ⟨_, rfl, ignored _⟩
  | outputFrameStart r => exact ⟨_, rfl, ignored _⟩
  | samplePair r x1 x2 => exact ⟨_, rfl, ignored _⟩
  | micCellComplete x => exact ⟨_, rfl, ignored _⟩
  | hopComplete x => exact ⟨_, rfl, ignored _⟩
  | requestExpiry x => exact ⟨_, rfl, ignored _⟩
  | pollSlot r => exact ⟨_, rfl, ignored _⟩
  | replyWindowClose r => exact ⟨_, rfl, ignored _⟩
  | handsetReply r chars => exact ⟨_, rfl, ignored _⟩
  | handsetOffline r h => exact ⟨_, rfl, ignored _⟩
  | markTimerExpiry r => exact ⟨_, rfl, same (by simp [State.markExpiry, held.room, Room.start])⟩
  | cueTimerExpiry r => exact ⟨_, rfl, same (by simp [State.cueExpiry, held.room, Room.start])⟩
  | resultHoldExpiry r => exact ⟨_, rfl, same (by simp [State.holdExpiry, held.room, Room.start])⟩
  | videoStaleExpiry r => exact ⟨_, rfl, same (by simp [State.staleExpiry, held.room, Room.start])⟩
  | offerTimerExpiry r =>
    exact ⟨_, rfl, same (by simp [State.offerExpiry, held.room, Room.start, RequestQueue.start])⟩
  | frameCompletion r => exact ⟨_, rfl, same (by simp [State.frameCompletion, held.handed, takeFirst])⟩
  | analysisComplete =>
    exact ⟨_, rfl, same (by simp [State.analysisComplete, held.2.2.1, Engine.start])⟩
  | request r => exact ⟨_, rfl, same (by simp [State.request, held.handed, takeFirst])⟩
  | cancel r => exact ⟨_, rfl, same (by simp [State.cancel, held.handed, takeFirst])⟩

/-- With the reset line asserted the uplink may choose nothing. -/
theorem State.startUplink_of_asserted (asserted : s.link.resetLine = true) : s.startUplink = s := by
  simp [State.startUplink, Link.mayChoose, asserted]

theorem State.HeldInReset.startUplink (held : s.HeldInReset) : s.startUplink.HeldInReset := by
  intro asserted
  have asserted : s.link.resetLine = true := by simpa using asserted
  rw [State.startUplink_of_asserted asserted]
  exact held asserted

/-- A part in an assertion of the reset line, and one out of it, stay as R20 has them. -/
theorem exec_heldInReset (c : Instr) {s : State} (held : s.HeldInReset) :
    ∃ u, exec c s = finish u ∧ u.HeldInReset := by
  by_cases release : c = .resetLineRelease
  · subst release
    refine ⟨_, rfl, fun asserted => ?_⟩
    unfold State.releaseReset at asserted
    split at asserted
    next => simp [State.firstFrames, State.deviceReset_resetLine] at asserted
    next released => exact absurd asserted released
  by_cases asserted : s.link.resetLine = true
  · obtain ⟨u, left, inReset⟩ := exec_inReset release asserted (held asserted)
    exact ⟨u, left, fun _ => inReset⟩
  by_cases assert : c = .resetLineAssert
  · subst assert
    exact ⟨_, rfl, fun _ => s.inReset_startingState _⟩
  · obtain ⟨u, left, keeps⟩ := exec_keeps c s assert release
    exact ⟨u, left, fun now => absurd (keeps.line.symm.trans now) asserted⟩

theorem step_heldInReset {s t : State} (held : s.HeldInReset) (stepped : step s = .next t) : t.HeldInReset := by
  unfold step at stepped
  split at stepped
  next => exact Host.Outcome.next.inj stepped ▸ held
  next c cs _ =>
    obtain ⟨u, left, held⟩ := exec_heldInReset c (s := { s with pending := cs }) held
    obtain rfl : u.startUplink = t := Host.Outcome.next.inj (left.symm.trans stepped)
    exact held.startUplink

/-- A step ends with the uplink's choice, but for one that idles. -/
theorem step_busy {s t : State} (busy : s.link.Busy) (stepped : step s = .next t) : t.link.Busy := by
  unfold step at stepped
  split at stepped
  next => exact Host.Outcome.next.inj stepped ▸ busy
  next c cs _ =>
    obtain ⟨u, left⟩ := exec_finishes c { s with pending := cs }
    obtain rfl : u.startUplink = t := Host.Outcome.next.inj (left.symm.trans stepped)
    exact u.startUplink_busy

/-! ## The four invariants -/

/-- Settles O57, by what every event keeps of the queues, by the uplink's choice at its end, and by what the reset line
lets happen. -/
theorem stepKeepsTheLinkAgreement : Obligations.StepKeepsTheLinkAgreement := by
  intro s t queues busy held stepped
  obtain ⟨-, -, -, keeps⟩ := step_keeps stepped
  exact ⟨keeps queues, step_busy busy stepped, step_heldInReset held stepped⟩

/-- Settles O58, by what every event keeps of each room and of the handset records. -/
theorem stepKeepsTheRoomAgreement : Obligations.StepKeepsTheRoomAgreement := by
  intro s t rooms handsets stepped
  obtain ⟨keeps, -⟩ := step_keeps stepped
  exact keeps ⟨rooms, handsets⟩

/-- Settles O59, by what every event keeps of each room's records, the engine, the pools and the glyph store. -/
theorem stepKeepsTheRecords : Obligations.StepKeepsTheRecords := by
  intro s t recorded stepped
  obtain ⟨-, keeps, -⟩ := step_keeps stepped
  exact keeps recorded

/-- Settles O60, by what every event keeps of each room's values and of the presets on their way. -/
theorem stepKeepsTheTimelineInRange : Obligations.StepKeepsTheTimelineInRange := by
  intro s t rooms presets stepped
  obtain ⟨-, -, keeps, -⟩ := step_keeps stepped
  exact keeps ⟨rooms, presets⟩

end Sys2Proof.Machine
end

section
/-! SUPPORT. What a step takes, what the resets and the link's events leave (R19 to R21, R164, R175, R176), and how
notice events and news enter their queues (R144, R171). -/

namespace Sys2Proof.Machine

/-- Settles O1, by the two cases of the queue of waiting commands. -/
theorem stepTakesFrontCommand : Obligations.StepTakesFrontCommand :=
  ⟨fun _ _ _ => rfl, fun _ none => by simp only [step, none]⟩

/-! ## Bytes on the link (R164) -/

/-- A cell is in arrival when credit stands and fewer bytes have arrived than it has. -/
theorem State.arriving_iff {s : State} :
    s.arriving = true ↔ (s.link.up = true ∧ s.link.resetLine = false ∧ s.link.results.length < Config.resultPlaces) ∧
      s.onLink ≠ [] ∧ (s.onLink.length < 5 ∨ s.onLink.length < 5 + u16 s.onLink 3) := by
  simp [State.arriving, Link.credit_iff, nextCell_eq_none, and_assoc]

/-- What a device reset leaves of the bytes on the link, by the lengths of R178. -/
theorem State.keptOnLink_eq (s : State) :
    s.keptOnLink = if s.link.up = true ∧ s.link.resetLine = false ∧ s.link.results.length < Config.resultPlaces ∧
        (s.onLink.length < 5 ∨ s.onLink.length < 5 + u16 s.onLink 3) then [] else s.onLink := by
  unfold State.keptOnLink
  by_cases empty : s.onLink = []
  · simp [empty]
  · simp only [State.arriving_iff, empty, ne_eq, not_false_eq_true, true_and, and_assoc]

/-! ## Resets (R19, R20, R177) -/

/-- The starting state with its line at a level, a cause set and no notice raised. -/
theorem State.fresh_startingState (s : State) (line : Bool) (cause : ReadyCause) :
    s.Fresh line cause [] s.keptOnLink (fun _ => .black) (s.startingState line cause) := by
  refine ⟨rfl, rfl, fun r => ?_, rfl, rfl, rfl, rfl⟩
  simp [State.room, State.startingState, Vector.get, Compositor.start, Room.start]

theorem State.fresh_deviceReset (s : State) (cause : ReadyCause) :
    s.Fresh false cause [⟨none, .ready⟩] s.keptOnLink (fun _ => .black) (s.deviceReset cause) := by
  obtain ⟨pending, onLink, rooms, glyphs, engine, handed, -⟩ := s.fresh_startingState false cause
  exact ⟨pending, onLink, rooms, glyphs, engine, handed, rfl⟩

/-- The first frame of a room in its starting state is black and changes nothing (R61). -/
theorem Room.start_frameStart (g : GlyphStore) : Room.start.frameStart g = Room.start := rfl

theorem State.fresh_firstFrames {s u : State} {cause : ReadyCause} {notices : List NoticePair} {kept : List Byte}
    (fresh : s.Fresh false cause notices kept (fun _ => .black) u) :
    s.Fresh false cause notices kept (fun _ => .black) u.firstFrames := by
  obtain ⟨pending, onLink, rooms, others⟩ := fresh
  refine ⟨pending, onLink, fun r => ?_, others⟩
  have room : u.firstFrames.room r = (u.room r).frameStart u.glyphs := by
    simp [State.firstFrames, State.room, Vector.get]
    rfl
  rw [room, rooms]
  exact Room.start_frameStart _

theorem State.fresh_resetByCommand (s : State) :
    s.Fresh false .resetCommand [⟨none, .ready⟩] s.onLink
      (fun r => (s.room r).compositor.display.cutAfter (min 720 (Config.linesDrawn s.cuts r))) s.resetByCommand := by
  refine ⟨rfl, rfl, fun r => ?_, rfl, rfl, rfl, rfl⟩
  fin_cases r <;> rfl

theorem exec_deviceReset {tag : Byte} {s : State} (credit : s.takesCells = true) :
    exec (.deviceReset 15 tag []) s = .next s.resetByCommand.startUplink :=
  congrArg finish (State.command_device .deviceReset credit rfl)

/-- Settles O2, by the starting state each reset sets and the notice it raises. -/
theorem deviceResetsSetTheStartingState : Obligations.DeviceResetsSetTheStartingState := by
  rintro s kept link
  rw [show kept = s.keptOnLink from link.trans s.keptOnLink_eq.symm]
  refine ⟨⟨s.assertReset, ?_, s.fresh_startingState true .resetLine, rfl⟩, fun asserted => ?_, fun released => ?_,
    fun credit tag => ⟨s.resetByCommand, exec_deviceReset credit, s.fresh_resetByCommand, rfl⟩⟩
  · exact congrArg _ (State.startUplink_of_asserted rfl)
  · rw [← State.keptOnLink_of_no_credit (State.credit_of_asserted asserted)]
    refine ⟨⟨(s.deviceReset .resetLine).firstFrames, ?_, State.fresh_firstFrames (s.fresh_deviceReset .resetLine), rfl⟩,
      s.startingState true .powerOn, ?_, s.fresh_startingState true .powerOn, rfl⟩
    · simp only [exec, execResetLineRelease, finish, State.releaseReset, asserted, if_true]
    · simp only [exec, execPowerOn, finish, State.powerOn, asserted, if_true]
      exact congrArg _ (State.startUplink_of_asserted rfl)
  · refine ⟨?_, s.deviceReset .powerOn, ?_, s.fresh_deviceReset .powerOn, rfl⟩
    · simp only [exec, execResetLineRelease, finish, State.releaseReset, released, Bool.false_eq_true, if_false]
    · simp only [exec, execPowerOn, finish, State.powerOn, released, Bool.false_eq_true, if_false]

/-- The state at reset is one that a power-on sets. -/
theorem State.reset_starts : State.reset.Starts := by
  refine ⟨fun r => ⟨.black, ?_⟩, rfl, rfl, rfl⟩
  fin_cases r <;> rfl

/-- Settles O3, by the state at reset written out, and by what every starting state agrees with. -/
theorem resetStateHoldsTheStartingValues : Obligations.ResetStateHoldsTheStartingValues := by
  obtain ⟨rooms, handsets⟩ := State.reset_starts.agreed
  obtain ⟨recorded, engine, pools, glyphs⟩ := State.reset_starts.recorded
  refine ⟨?_, ⟨rfl, rfl, fun r => ?_, rfl, rfl, rfl, rfl⟩, rfl, rfl, rfl, by decide, by decide, nofun, fun r => ?_, handsets,
    recorded, engine, pools, glyphs, State.reset_starts.valued.1⟩
  · rintro black mic singer rfl rfl rfl
    rfl
  · fin_cases r <;> rfl
  · obtain ⟨reasons, timers, ordered, head, limits, dark, -⟩ := rooms r
    exact ⟨reasons, timers, ordered, head, limits, dark⟩

/-! ## The link (R21, R165, R175, R176) -/

/-- With the link down no cell is sent. -/
theorem State.startUplink_of_down {s : State} (down : s.link.up = false) : s.startUplink = s := by
  simp [State.startUplink, Link.mayChoose, down]

theorem exec_linkDown (lastBytes : List Byte) (s : State) :
    exec (.linkDown lastBytes) s = .next ({ s with onLink := s.onLink ++ lastBytes } : State).linkGoesDown := by
  refine congrArg _ (State.startUplink_of_down ?_)
  unfold State.linkGoesDown
  split <;> rfl

theorem State.linkGoesDown_of_arriving {s : State} (arriving : s.arriving = true) :
    s.linkGoesDown = { s with
      onLink := [], link := { s.link with up := false, cellsDiscarded := satInc s.link.cellsDiscarded } } := by
  simp only [State.linkGoesDown, arriving, if_true]; rfl

theorem State.linkGoesDown_of_whole {s : State} (whole : s.arriving = false) :
    s.linkGoesDown = { s with link := { s.link with up := false } } := by
  simp only [State.linkGoesDown, whole, Bool.false_eq_true, if_false]

/-- READY waits already when its pair is queued, is pending, or stands in the transmit register (R21). -/
theorem Link.readyWaiting_iff {l : Link} :
    l.readyWaiting = true ↔ ⟨none, .ready⟩ ∈ l.notices ∨ ⟨none, .ready⟩ ∈ l.pendingPairs ∨
      ∃ p content, l.transmit = some (.notice p content) ∧ p.kind = .ready := by
  unfold Link.readyWaiting
  rw [Bool.or_eq_true, decide_eq_true_eq, or_assoc]
  cases transmit : l.transmit with
  | none => simp
  | some cell =>
    cases cell with
    | mic => simp
    | result => simp
    | notice p content => simp

theorem exec_linkUp_of_up {s : State} (up : s.link.up = true) : exec .linkUp s = .next s.startUplink := by
  simp only [exec, execLinkUp, finish, State.linkUp, up, if_true]

theorem exec_linkUp_of_down {s : State} (down : s.link.up = false) :
    exec .linkUp s = .next ({ s with link := { s.link with up := true } } : State).settleReady.startUplink := by
  simp only [exec, execLinkUp, finish, State.linkUp, down, Bool.false_eq_true, if_false]

theorem State.settleReady_of_waiting {s : State} (waits : s.link.readyWaiting = true ∨ s.link.resetLine = true) :
    s.settleReady = s := by
  rw [State.settleReady, if_pos (by simpa using waits)]

theorem State.settleReady_of_absent {s : State} (absent : s.link.readyWaiting = false) (released : s.link.resetLine = false) :
    s.settleReady = { s with link := Link.enter ⟨none, .ready⟩ { s.link with readyCause := .none } } := by
  rw [State.settleReady, if_neg (by simp [absent, released])]
  rfl

/-- Settles O4, by whether the cell on the link is whole, and by whether READY waits. -/
theorem linkDownAndUp : Obligations.LinkDownAndUp := by
  refine ⟨?_, fun s => ⟨exec_linkUp_of_up, fun down => ⟨fun waits => ?_, fun released queued pending sent => ?_⟩⟩⟩
  · rintro s lastBytes l rfl
    rw [exec_linkDown]
    refine ⟨fun up released room some short => ?_, fun whole => ?_⟩
    · rw [State.linkGoesDown_of_arriving (s := { s with onLink := s.onLink ++ lastBytes })
        (State.arriving_iff.2 ⟨⟨up, released, room⟩, some, short⟩)]
    · rw [State.linkGoesDown_of_whole]
      rw [Bool.eq_false_iff, Ne, State.arriving_iff]
      rintro ⟨⟨up, released, room⟩, some, short⟩
      rcases whole with down | asserted | full | empty | ⟨header, payload⟩
      · exact absurd (up.symm.trans down) (by simp)
      · exact absurd (asserted.symm.trans released) (by simp)
      · exact absurd room (not_lt.2 full)
      · exact some empty
      · rcases short with short | short
        · exact absurd short (not_lt.2 header)
        · exact absurd short (not_lt.2 payload)
  · rw [exec_linkUp_of_down down, State.settleReady_of_waiting]
    rw [Link.readyWaiting_iff]
    exact or_comm.1 waits
  · have absent : s.link.readyWaiting = false := by
      rw [Bool.eq_false_iff, Ne, Link.readyWaiting_iff]
      rintro (h | h | ⟨p, content, h, ready⟩)
      · exact queued h
      · exact pending h
      · exact sent p content h ready
    refine ⟨_, exec_linkUp_of_down down, ?_⟩
    have settled := State.settleReady_of_absent (s := { s with link := { s.link with up := true } }) absent released
    rw [settled]
    refine ⟨⟨rfl, rfl, rfl, rfl, rfl, rfl, rfl⟩, ?_⟩
    simp only [Link.enter, queued, pending, or_self, if_false]
    rfl

/-! ## Notice events (R171) and news (R144) -/

/-- A pair takes its place among the pending pairs behind those of no higher rank. -/
theorem insertPair_split (p : NoticePair) (l : List NoticePair) :
    ∃ before after, l = before ++ after ∧ insertPair p l = before ++ p :: after ∧ (∀ x ∈ before, x.rank ≤ p.rank) ∧
      ∀ x ∈ after.head?, p.rank < x.rank := by
  induction l with
  | nil => exact ⟨[], [], rfl, rfl, nofun, nofun⟩
  | cons q qs ih =>
    unfold insertPair
    split
    next before => exact ⟨[], q :: qs, rfl, rfl, nofun, by simpa using before⟩
    next behind =>
      obtain ⟨before, after, split, inserted, low, high⟩ := ih
      refine ⟨q :: before, after, by rw [split]; rfl, by rw [inserted]; rfl, ?_, high⟩
      exact List.forall_mem_cons.2 ⟨not_lt.1 behind, low⟩

/-- Settles O6, by the three cases of an entering event and the place of a pair among the pending ones. -/
theorem noticeEventsMergeJoinOrPend : Obligations.NoticeEventsMergeJoinOrPend := by
  intro p l
  refine ⟨fun waits => if_pos waits, fun queued pending => ⟨fun room => ?_, fun full => ?_⟩⟩
  · rw [Link.enter, if_neg (not_or.2 ⟨queued, pending⟩), if_pos (show l.notices.length < Config.noticePlaces from room)]
  · obtain ⟨before, after, split, inserted, low, high⟩ := insertPair_split p l.pendingPairs
    refine ⟨before, after, split, ?_, fun rising => ⟨low, ?_⟩⟩
    · rw [Link.enter, if_neg (not_or.2 ⟨queued, pending⟩),
        if_neg (show ¬l.notices.length < Config.noticePlaces from not_lt.2 full), inserted]
    · rw [split] at rising
      obtain ⟨-, later, -⟩ := List.pairwise_append.1 rising
      cases after with
      | nil => nofun
      | cons q qs =>
        have first := high q rfl
        exact List.forall_mem_cons.2 ⟨first, fun x member => first.trans ((List.pairwise_cons.1 later).1 x member)⟩

/-- Settles O56, by whether the handset is ONLINE and its outbox full. -/
theorem newsJoinsTheOutbox : Obligations.NewsJoinsTheOutbox := by
  rintro ln h n x rfl
  rcases ln.placeNews_cases h n with ⟨off, unchanged⟩ | ⟨on, room, joined⟩ | ⟨on, full, pushed⟩
  · exact ⟨fun _ => unchanged, fun on => absurd (on.symm.trans off) (by simp), fun on => absurd (on.symm.trans off) (by simp)⟩
  · exact ⟨fun off => absurd (on.symm.trans off) (by simp), fun _ _ => joined, fun _ full => absurd room (not_lt.2 full)⟩
  · refine ⟨fun off => absurd (on.symm.trans off) (by simp), fun _ room => absurd room (not_lt.2 full), fun _ _ => ?_⟩
    rw [pushed]
    congr 2
    funext o
    split <;> rfl

end Sys2Proof.Machine
end

section
/-! SUPPORT. What the uplink sends (R169, R173, R178): the channel whose cell goes first, the content of notices, and the
bytes of the cells. -/

namespace Sys2Proof.Machine

/-! ## The uplink's choice (R169) -/

/-- The channels stand in the uplink's order by how far they follow the channel last sent. -/
theorem sendOrder_rising (last : Channel) :
    (sendOrder last).Pairwise fun c d => (c - last - 1).val < (d - last - 1).val := by
  decide +revert

theorem mem_sendOrder (last c : Channel) : c ∈ sendOrder last := by decide +revert

/-- The waiting cell that comes first after the channel last sent goes first. -/
theorem Link.nextMic_of_first {l : Link} {c : Channel} {x : MicCell} (waits : l.micWaiting.get c = some x)
    (first : ∀ d : Channel, (l.micWaiting.get d).isSome = true → (c - l.lastSent - 1).val ≤ (d - l.lastSent - 1).val) :
    l.nextMic = some c := by
  have rising := sendOrder_rising l.lastSent
  cases next : l.nextMic with
  | none =>
    have absent := List.find?_eq_none.1 next c (mem_sendOrder _ c)
    simp [waits] at absent
  | some d =>
    obtain ⟨found, before, after, order, unsent⟩ := List.find?_eq_some_iff_append.1 next
    have place := mem_sendOrder l.lastSent c
    rw [order] at place rising
    rcases List.mem_append.1 place with ahead | behind
    · exact absurd (unsent c ahead) (by simp [waits])
    rcases List.mem_cons.1 behind with rfl | later
    · rfl
    · have late := (List.pairwise_cons.1 (List.pairwise_append.1 rising).2.1).1 c later
      exact absurd (first d found) (not_le.2 late)

theorem Link.nextMic_eq_none {l : Link} (empty : ∀ c : Channel, l.micWaiting.get c = none) : l.nextMic = none := by
  simp [Link.nextMic, empty]

theorem State.startUplink_of_busy {s : State}
    (held : s.link.up = false ∨ s.link.resetLine = true ∨ s.link.transmit.isSome = true) : s.startUplink = s := by
  rw [State.startUplink, if_neg]
  rcases held with h | h | h <;> simp [Link.mayChoose, ← Option.not_isSome, h]

theorem State.startUplink_of_free {s : State} (up : s.link.up = true) (released : s.link.resetLine = false)
    (free : s.link.transmit = none) : s.startUplink = { s with link := s.chosenLink } := by
  rw [State.startUplink, if_pos (by simp [Link.mayChoose, up, released, free])]

/-- An entry leaves the notice queue, and the first pending pair takes the tail. -/
theorem Link.leaveNotice_eq (l : Link) (rest : List NoticePair) :
    l.leaveNotice rest =
      { l with notices := rest ++ l.pendingPairs.take 1, pendingPairs := l.pendingPairs.drop 1 } := by
  unfold Link.leaveNotice
  cases pending : l.pendingPairs with
  | nil => simp
  | cons p ps => simp

/-! ## The bytes of numbers (chapter 11) -/

theorem be4_eq (n : Nat) : be4 n = be2 (n / 65536) ++ be2 n := by
  simp [be4, be2, Nat.div_div_eq_div_mul]

/-! ## The content of notices (R173) -/

theorem offerBytes_of_offered {e : Entry} (offered : e.state = .offered) :
    offerBytes (some e) = be1 e.ticket ++ be4 e.song ++ flagByte e.duet ++ beInt (e.preset.getD (-128)) := by
  simp only [offerBytes, offered, if_true]

theorem offerBytes_of_none {head : Option Entry} (none : ∀ e ∈ head, e.state ≠ .offered) :
    offerBytes head = [0, 0, 0, 0, 0, 0, 128] := by
  cases head with
  | none => rfl
  | some e => simp only [offerBytes, none e rfl, if_false]; rfl

theorem songStartedBytes_of_running {rm : Room} {e : Entry} (head : rm.queue.head? = some e)
    (running : rm.phase = .playing ∨ rm.phase = .paused) :
    songStartedBytes rm = be1 e.ticket ++ be4 e.song ++ be4 rm.timeline.clock := by
  rcases running with phase | phase <;> simp only [songStartedBytes, phase, head]

theorem songStartedBytes_of_none {rm : Room} (playing : rm.phase ≠ .playing) (paused : rm.phase ≠ .paused) :
    songStartedBytes rm = List.replicate 9 0 := by
  unfold songStartedBytes
  split
  next is _ => exact absurd is playing
  next is _ => exact absurd is paused
  next => rfl

/-! ## The bytes of upstream cells (R178) -/

/-- The header and payload of an upstream cell, the payload's length in two bytes. -/
theorem UpCell.bytes_of_length {c : UpCell} {n : Nat} (length : c.payload.length = n) :
    c.bytes = c.head ++ be2 n ++ c.payload := by
  rw [UpCell.bytes, length]

theorem length_flatMap_two {α : Type} (f : α → List Byte) (two : ∀ x, (f x).length = 2) (l : List α) :
    (l.flatMap f).length = 2 * l.length := by
  induction l with
  | nil => rfl
  | cons x xs ih => rw [List.flatMap_cons, List.length_append, ih, two, List.length_cons]; omega

/-- Settles O5, by the uplink's order, by each notice's content, and by each kind of cell. -/
theorem uplinkChoosesInOrder : Obligations.UplinkChoosesInOrder := by
  refine ⟨fun s up released => ?_, fun s held => ?_, fun s => ?_, fun s => State.startUplink_of_busy,
    fun s up released free => ⟨fun c x waits first => ?_, fun noMic => ⟨fun x xs results => ?_, fun noResult =>
      ⟨fun p ps notices => ?_, fun noNotice => ?_⟩⟩⟩, fun s => ?_, ?_, ?_⟩
  · simp only [exec, execUplinkFree, finish, Link.sent, up, released, Bool.not_false, Bool.and_self, if_true]
  · have still : s.link.sent = s.link := by
      rcases held with h | h <;> simp [Link.sent, h]
    simp only [exec, execUplinkFree, finish, still]
    rw [State.startUplink_of_busy (held.imp_right .inl)]
  · rw [State.startUplink_eq]
    exact ⟨rfl, rfl, rfl, rfl, rfl, rfl, rfl⟩
  · rw [State.startUplink_of_free up released free]
    simp only [State.chosenLink, Link.nextMic_of_first waits first, Link.sendMic, waits, Option.map_some]
  · rw [State.startUplink_of_free up released free]
    simp only [State.chosenLink, Link.nextMic_eq_none noMic, results]
  · rw [State.startUplink_of_free up released free]
    simp only [State.chosenLink, Link.nextMic_eq_none noMic, noResult, notices, Link.leaveNotice_eq]
  · rw [State.startUplink_of_free up released free]
    simp only [State.chosenLink, Link.nextMic_eq_none noMic, noResult, noNotice]
  · cases cause : s.link.readyCause <;> simp only [State.noticeContent, cause] <;> rfl
  · rintro s r rm pair b b2 b4 rfl rfl rfl rfl rfl
    refine ⟨fun e head offered => ?_, fun other => offerBytes_of_none other, rfl, ?_, fun e head running => ?_,
      fun playing paused => songStartedBytes_of_none playing paused, ?_, rfl, ?_, fun none => ?_, rfl, ?_, ?_, ?_⟩
    · have content : s.noticeContent ⟨some r, .offer⟩ = offerBytes (some e) := congrArg offerBytes head
      rw [content, offerBytes_of_offered offered, be4_eq]
      rfl
    · show (match (s.room r).result with | some x => be1 x.ticket ++ be4 x.song | none => be1 0 ++ be4 0) = _
      cases (s.room r).result with
      | none => rfl
      | some x => simp only [be4_eq]; rfl
    · show songStartedBytes (s.room r) = _
      rw [songStartedBytes_of_running head running, be4_eq, be4_eq]
      rfl
    · rintro state reasons rfl rfl
      exact ⟨rfl, rfl⟩
    · rintro x entry result rfl
      show resultBytes (s.room r).result = _
      simp only [result, resultBytes, be4_eq]
      rfl
    · exact congrArg resultBytes none
    · show handsetChangedBytes (s.room r).line = _
      unfold handsetChangedBytes
      cases (s.room r).line.changed <;> rfl
    · show presentSequence (s.room r).lyrics.lastSkipped = _
      cases (s.room r).lyrics.lastSkipped <;> rfl
    · show presentSequence (s.room r).video.lastCompleted = _
      cases (s.room r).video.lastCompleted <;> rfl
  · rintro b2 rfl
    refine ⟨fun r m x samples => ?_, fun x => ?_, fun p content => ?_⟩
    · have length : (UpCell.mic (channelOf r m) x).payload.length = 131 := by
        have two := length_flatMap_two (fun y : BitVec 16 => [byteOf (y.toNat / 256), byteOf y.toNat]) (fun _ => rfl)
        simp only [UpCell.payload, List.length_append, two, samples]
        rfl
      have room : (channelOf r m).val / 2 = r.val := congrArg Fin.val (roomOf_channelOf r m)
      have mic : (channelOf r m).val % 2 = m.index := by cases m <;> simp [channelOf, Mic.index]
      rw [UpCell.bytes_of_length length]
      simp only [UpCell.head, UpCell.payload, room, mic]
      rfl
    · have length : (UpCell.result x).payload.length = 2 + x.picture.length := by
        simp [UpCell.payload, be1]; omega
      rw [UpCell.bytes_of_length length]
      obtain ⟨tag, room, status, code, picture⟩ := x
      cases status <;> rfl
    · have length : (UpCell.notice p content).payload.length = 1 + content.length := by
        simp [UpCell.payload, be1]; omega
      rw [UpCell.bytes_of_length length]
      obtain ⟨room, kind⟩ := p
      cases room <;> cases kind <;> rfl

end Sys2Proof.Machine
end

section
/-! SUPPORT. What the intake reads and does (R164 to R166, R168, R178): the command a row of the catalogue names, the cell
that stands first on the link, the refusals, and that what an event does is the same whatever waits on the link. -/

namespace Sys2Proof.Machine

/-! ## The catalogue (R166, 11.2) -/

/-- A command addressed to the device. -/
def Command.isDevice : Command → Bool
  | .device _ => true
  | .room _ => false

/-- The bytes after the code that a command requires, none when its owner checks their number. -/
def Command.argBytes : Command → Option Nat
  | .device c => c.argBytes
  | .room c => c.argBytes

/-- A row of the catalogue names a command, and the event is that command's. -/
structure ControlRow.Names (k : ControlRow) (i : Instr) (c : Command) : Prop where
  event : ∀ s, exec i s = finish (s.command c k.room k.tag k.args)
  code : c.code = k.code.toNat
  known : Command.ofCode k.code.toNat = some c
  device : k.device = c.isDevice
  length : k.length = c.argBytes.map (· + 1)

theorem ControlRow.names_of_row {i : Instr} {k : ControlRow} (row : controlRowOf i = some k) : ∃ c, k.Names i c := by
  cases i with
  | deviceReset b tag args => obtain rfl := Option.some.inj row; exact ⟨.device .deviceReset, fun _ => rfl, rfl, rfl, rfl, rfl⟩
  | statusQuery b tag args => obtain rfl := Option.some.inj row; exact ⟨.device .statusQuery, fun _ => rfl, rfl, rfl, rfl, rfl⟩
  | glyphLoad b tag args => obtain rfl := Option.some.inj row; exact ⟨.device .glyphLoad, fun _ => rfl, rfl, rfl, rfl, rfl⟩
  | glyphClear b tag args => obtain rfl := Option.some.inj row; exact ⟨.device .glyphClear, fun _ => rfl, rfl, rfl, rfl, rfl⟩
  | pitchCells b tag args => obtain rfl := Option.some.inj row; exact ⟨.device .pitchCells, fun _ => rfl, rfl, rfl, rfl, rfl⟩
  | roomOpen b tag args => obtain rfl := Option.some.inj row; exact ⟨.room .roomOpen, fun _ => rfl, rfl, rfl, rfl, rfl⟩
  | roomClose b tag args => obtain rfl := Option.some.inj row; exact ⟨.room .roomClose, fun _ => rfl, rfl, rfl, rfl, rfl⟩
  | roomReset b tag args => obtain rfl := Option.some.inj row; exact ⟨.room .roomReset, fun _ => rfl, rfl, rfl, rfl, rfl⟩
  | roomSettings b tag args => obtain rfl := Option.some.inj row; exact ⟨.room .roomSettings, fun _ => rfl, rfl, rfl, rfl, rfl⟩
  | noticeMask b tag args => obtain rfl := Option.some.inj row; exact ⟨.room .noticeMask, fun _ => rfl, rfl, rfl, rfl, rfl⟩
  | bandTable b tag args => obtain rfl := Option.some.inj row; exact ⟨.room .bandTable, fun _ => rfl, rfl, rfl, rfl, rfl⟩
  | palette b tag args => obtain rfl := Option.some.inj row; exact ⟨.room .palette, fun _ => rfl, rfl, rfl, rfl, rfl⟩
  | lyricLine b tag args => obtain rfl := Option.some.inj row; exact ⟨.room .lyricLine, fun _ => rfl, rfl, rfl, rfl, rfl⟩
  | noteEvents b tag args => obtain rfl := Option.some.inj row; exact ⟨.room .noteEvents, fun _ => rfl, rfl, rfl, rfl, rfl⟩
  | songOpen b tag args => obtain rfl := Option.some.inj row; exact ⟨.room .songOpen, fun _ => rfl, rfl, rfl, rfl, rfl⟩
  | songRefuse b tag args => obtain rfl := Option.some.inj row; exact ⟨.room .songRefuse, fun _ => rfl, rfl, rfl, rfl, rfl⟩
  | songStart b tag args => obtain rfl := Option.some.inj row; exact ⟨.room .songStart, fun _ => rfl, rfl, rfl, rfl, rfl⟩
  | songEnd b tag args => obtain rfl := Option.some.inj row; exact ⟨.room .songEnd, fun _ => rfl, rfl, rfl, rfl, rfl⟩
  | pause b tag args => obtain rfl := Option.some.inj row; exact ⟨.room .pause, fun _ => rfl, rfl, rfl, rfl, rfl⟩
  | resume b tag args => obtain rfl := Option.some.inj row; exact ⟨.room .resume, fun _ => rfl, rfl, rfl, rfl, rfl⟩
  | skip b tag args => obtain rfl := Option.some.inj row; exact ⟨.room .skip, fun _ => rfl, rfl, rfl, rfl, rfl⟩
  | setTempo b tag args => obtain rfl := Option.some.inj row; exact ⟨.room .setTempo, fun _ => rfl, rfl, rfl, rfl, rfl⟩
  | offerPoll b tag args => obtain rfl := Option.some.inj row; exact ⟨.room .offerPoll, fun _ => rfl, rfl, rfl, rfl, rfl⟩
  | queueRemove b tag args => obtain rfl := Option.some.inj row; exact ⟨.room .queueRemove, fun _ => rfl, rfl, rfl, rfl, rfl⟩
  | queueMove b tag args => obtain rfl := Option.some.inj row; exact ⟨.room .queueMove, fun _ => rfl, rfl, rfl, rfl, rfl⟩
  | _ => cases row

/-- A code outside the catalogue names no command. -/
theorem Command.ofCode_eq_none {code : Nat}
    (unlisted : code ∉ [1, 2, 16, 17, 18, 19, 20, 32, 33, 34, 35, 48, 49, 50, 64, 65, 66, 67, 68, 69, 70, 71, 80, 81, 82]) :
    Command.ofCode code = none := by
  rw [Command.ofCode, List.find?_eq_none]
  intro c listed named
  have all : ∀ c ∈ Command.catalogue, c.code ∈
      [1, 2, 16, 17, 18, 19, 20, 32, 33, 34, 35, 48, 49, 50, 64, 65, 66, 67, 68, 69, 70, 71, 80, 81, 82] := by decide
  rw [decide_eq_true_eq] at named
  exact unlisted (named ▸ all c listed)

/-! ## The first cell on the link (R164, R178) -/

theorem State.takesCells_iff {s : State} :
    s.takesCells = true ↔
      s.link.up = true ∧ s.link.resetLine = false ∧ s.link.results.length < Config.resultPlaces ∧ s.onLink = [] := by
  simp [State.takesCells, Link.credit_iff, and_assoc]

section
variable {kind room tag high low : Byte} {payload rest : List Byte} (length : payload.length = 256 * high.toNat + low.toNat)
include length

theorem nextCell_of_header :
    nextCell ([kind, room, tag, high, low] ++ payload ++ rest) = some (⟨kind, room, tag, payload⟩, rest) := by
  simp [nextCell, ← length]

/-- A length field of two bytes is the number of bytes that follow. -/
theorem be2_of_length : be2 payload.length = [high, low] := by
  have low_lt := low.isLt
  have high_lt := high.isLt
  rw [length]
  simp only [be2, byteOf, List.cons.injEq, and_true]
  constructor <;> apply BitVec.eq_of_toNat_eq <;> simp only [BitVec.toNat_ofNat] <;> omega

theorem State.arrive_of_cell {s : State} {bytes : List Byte} (credit : s.link.credit = true)
    (stands : s.onLink ++ bytes = [kind, room, tag, high, low] ++ payload ++ rest) :
    s.arrive bytes = ({ s with onLink := rest } : State).takeCell ⟨kind, room, tag, payload⟩ := by
  simp only [State.arrive, State.takeFromLink, stands, nextCell_of_header length, credit, if_true]

/-- A cell that arrives when nothing waits before it is taken at once. -/
theorem exec_cellIntake {s : State} (credit : s.takesCells = true) :
    exec (.cellIntake ([kind, room, tag, high, low] ++ payload)) s = finish (s.takeCell ⟨kind, room, tag, payload⟩) := by
  obtain ⟨granted, nothing⟩ := Bool.and_eq_true_iff.1 credit
  have nothing : s.onLink = [] := by simpa using nothing
  have stays : ({ s with onLink := [] } : State) = s := by rw [← nothing]
  refine congrArg finish ?_
  rw [State.arrive_of_cell (kind := kind) (room := room) (tag := tag) length (rest := []) granted (by simp [nothing]), stays]

end

/-! ## Kinds of cells (R165, R166) -/

theorem roomByte_of_ge {b : Byte} (past : 4 ≤ b.toNat) : roomByte b = none := by
  rw [roomByte, dif_neg (not_lt.2 past)]

theorem State.takeCell_control (s : State) (room tag : Byte) (payload : List Byte) :
    s.takeCell ⟨3, room, tag, payload⟩ = s.takeControl room tag payload := by
  simp [State.takeCell]

theorem State.takeCell_video (s : State) (room tag : Byte) (payload : List Byte) :
    s.takeCell ⟨1, room, tag, payload⟩ = s.takeVideoCell ⟨1, room, tag, payload⟩ := by
  simp [State.takeCell]

theorem State.takeCell_mark (s : State) (room tag : Byte) (payload : List Byte) :
    s.takeCell ⟨2, room, tag, payload⟩ = s.takeMarkCell ⟨2, room, tag, payload⟩ := by
  simp [State.takeCell]

theorem State.takeControl_of_known {code : Byte} {c : Command} (known : Command.ofCode code.toNat = some c) (s : State)
    (room tag : Byte) (args : List Byte) :
    s.takeControl room tag (code :: args) = s.takeCommand c room tag args := by
  simp only [State.takeControl, known]

theorem State.takeControl_of_unknown {code : Byte} (unknown : Command.ofCode code.toNat = none) (s : State)
    (room tag : Byte) (args : List Byte) : s.takeControl room tag (code :: args) = s.unknownKind room tag := by
  simp only [State.takeControl, unknown]

theorem controlCell_bytes {c : Command} {code room tag high low : Byte} {args : List Byte} (named : c.code = code.toNat)
    (length : args.length + 1 = 256 * high.toNat + low.toNat) :
    (controlCell c room tag args).bytes = [3, room, tag, high, low] ++ (code :: args) := by
  have same : byteOf c.code = code := by rw [named]; simp [byteOf]
  have field : be2 (code :: args).length = [high, low] := be2_of_length length
  simp only [controlCell, DownCell.bytes, same, field]
  rfl

/-- Settles O7, by the catalogue's rows, by the header of each cell, and by the kinds of cells. -/
theorem intakeTakesEachKind : Obligations.IntakeTakesEachKind := by
  refine ⟨fun i k s high low row length => ?_, fun s room tag credit => ?_,
    fun s room tag high low code args credit length unlisted => ?_,
    fun s kind room tag high low payload bytes credit length is => ?_⟩
  · obtain ⟨c, names⟩ := ControlRow.names_of_row row
    rw [names.event]
    by_cases credit : s.takesCells = true
    · rw [State.command, if_pos credit]
      refine (exec_cellIntake (payload := k.code :: k.args) length credit).trans ?_
      rw [State.takeCell_control, State.takeControl_of_known names.known]
    · rw [State.command, if_neg credit, controlCell_bytes names.code length]
      rfl
  · refine (exec_cellIntake (payload := []) rfl credit).trans ?_
    rw [State.takeCell_control]
    rfl
  · refine (exec_cellIntake (payload := code :: args) length credit).trans ?_
    rw [State.takeCell_control, State.takeControl_of_unknown (Command.ofCode_eq_none unlisted)]
    rfl
  · subst is
    rw [exec_cellIntake length credit]
    refine ⟨?_, ?_, ?_, fun video mark control => ?_⟩
    · rintro rfl r named
      rw [State.takeCell_video, State.takeVideoCell, roomByte_of_val named]
      rfl
    · rintro rfl r named four
      simp only [State.takeCell_mark, State.takeMarkCell, roomByte_of_val named, four, if_true]
      rfl
    · rintro (⟨rfl, past⟩ | ⟨rfl, past | other⟩)
      · rw [State.takeCell_video, State.takeVideoCell, roomByte_of_ge past]
        rfl
      · rw [State.takeCell_mark, State.takeMarkCell, roomByte_of_ge past]
        rfl
      · rw [State.takeCell_mark, State.takeMarkCell]
        cases roomByte room
        · rfl
        · simp only [other, if_false]
          rfl
    · simp only [State.takeCell, video, mark, control, if_false]
      rfl

/-! ## Refusals and results (R166, R168) -/

theorem lengthAllowed_of_ne {fixed : Option Nat} {args : List Byte} {n : Nat} (required : fixed.map (· + 1) = some n)
    (other : args.length + 1 ≠ n) : lengthAllowed fixed args = false := by
  obtain ⟨m, rfl, rfl⟩ := Option.map_eq_some_iff.1 required
  simpa [lengthAllowed] using other

/-- Settles O9, by the second and third checks of R166 for each row of the catalogue. -/
theorem intakeRefusesAndAnswers : Obligations.IntakeRefusesAndAnswers := by
  refine ⟨fun i k s row credit => ?_, fun s x => ⟨⟨rfl, rfl, rfl, rfl, rfl, rfl, rfl⟩, ?_⟩⟩
  · obtain ⟨c, event, code, known, device, length⟩ := ControlRow.names_of_row row
    rw [event, State.command, if_pos credit, finish_eq, ← code]
    cases c with
    | device d =>
      have device : k.device = true := device
      refine ⟨fun wrong => ?_, fun right n required other => ?_⟩
      · have elsewhere : k.room ≠ deviceByte := (wrong.resolve_right (by simp [device])).2
        simp only [State.takeCommand, elsewhere, ne_eq, not_false_eq_true, if_true]
      · have here : k.room = deviceByte := (right.resolve_right (by simp [device])).2
        have short := lengthAllowed_of_ne (fixed := d.argBytes) (length ▸ required) other
        simp only [State.takeCommand, here, ne_eq, not_true_eq_false, if_false, short, Bool.not_false, if_true]
    | room r =>
      have device : k.device = false := device
      refine ⟨fun wrong => ?_, fun right n required other => ?_⟩
      · have past : 4 ≤ k.room.toNat := (wrong.resolve_left (by simp [device])).2
        simp only [State.takeCommand, roomByte_of_ge past]
      · have within : k.room.toNat < 4 := (right.resolve_left (by simp [device])).2
        have short := lengthAllowed_of_ne (fixed := r.argBytes) (length ▸ required) other
        simp only [State.takeCommand, roomByte_of_val (r := ⟨k.room.toNat, within⟩) rfl, short, Bool.not_false, if_true]
  · have full : s.link.results.length + 1 = Config.resultPlaces ↔ s.link.results.length = 15 := by
      simp only [Config.resultPlaces]; omega
    simp only [State.answer, Link.answer, full]

end Sys2Proof.Machine
end

section
/-! SUPPORT. What the commands of the room controller do (R4 to R7, R10, R13, R27): each command's meaning by the
room state in which it finds the room, as one written-out update of the state. -/

namespace Sys2Proof.Machine

section

variable {s : State} {b tag : Byte} {r : RoomId}

/-! ## Room states -/

/-- A song is open in the three states from CUEING to the song's end (R5). -/
theorem Phase.songOpen_iff {p : Phase} : p.songOpen = true ↔ p = .cueing ∨ p = .playing ∨ p = .paused := by
  cases p <;> simp [Phase.songOpen]

/-- None is open in the other three. -/
theorem Phase.songOpen_eq_false {p : Phase} (other : p = .dark ∨ p = .attract ∨ p = .result) :
    p.songOpen = false := by
  rcases other with rfl | rfl | rfl <;> rfl

/-! ## Opening, closing and resetting (R4 to R6) -/

theorem State.roomOpen_of_dark (dark : (s.room r).phase = .dark) :
    s.roomOpen r =
      (({ s.setRoom r { s.room r with phase := .attract, staleTimer := .running 2000 } with
          handed := s.handed.filter fun h => !h.isVideoOf r }).offerTrigger r, .ok) := by
  rw [State.roomOpen, if_pos dark]; rfl

theorem State.roomOpen_of_open (other : (s.room r).phase ≠ .dark) : s.roomOpen r = (s, .busy) := if_neg other

theorem exec_roomOpen (credit : s.takesCells = true) (room : b.toNat = r.val) :
    exec (.roomOpen b tag []) s =
      .next ((s.roomOpen r).1.answer ⟨tag, b, (s.roomOpen r).2, 16, []⟩).startUplink :=
  finish_command_room .roomOpen credit room rfl

theorem exec_roomClose (credit : s.takesCells = true) (room : b.toNat = r.val) :
    exec (.roomClose b tag []) s = .next ((s.closeRoom r).answer ⟨tag, b, .ok, 17, []⟩).startUplink :=
  finish_command_room .roomClose credit room rfl

theorem exec_roomReset (credit : s.takesCells = true) (room : b.toNat = r.val) :
    exec (.roomReset b tag []) s = .next ((s.resetRoom r).answer ⟨tag, b, .ok, 18, []⟩).startUplink :=
  finish_command_room .roomReset credit room rfl

/-- News touches neither the handset most recently changed nor the message last sent. -/
@[simp] theorem RequestLine.placeNews_changed (h : HandsetId) (n : NewsItem) (ln : RequestLine) :
    (ln.placeNews h n).changed = ln.changed := by
  rcases ln.placeNews_cases h n with ⟨-, is⟩ | ⟨-, -, is⟩ | ⟨-, -, is⟩ <;> rw [is]

@[simp] theorem RequestLine.placeNews_sent (h : HandsetId) (n : NewsItem) (ln : RequestLine) :
    (ln.placeNews h n).sent = ln.sent := by
  rcases ln.placeNews_cases h n with ⟨-, is⟩ | ⟨-, -, is⟩ | ⟨-, -, is⟩ <;> rw [is]

@[simp] theorem RequestLine.tellAll_changed (es : List Entry) (ln : RequestLine) : (ln.tellAll es).changed = ln.changed := by
  induction es generalizing ln with
  | nil => rfl
  | cons e es ih => exact (ih _).trans (RequestLine.placeNews_changed ..)

@[simp] theorem RequestLine.tellAll_sent (es : List Entry) (ln : RequestLine) : (ln.tellAll es).sent = ln.sent := by
  induction es generalizing ln with
  | nil => rfl
  | cons e es ih => exact (ih _).trans (RequestLine.placeNews_sent ..)

/-! ## The song's start (R7) -/

/-- An evaluation changes a room's lines, and the link when lines are skipped (R52, R53). -/
theorem State.evaluate_eq (s : State) (r : RoomId) :
    s.evaluate r =
      { s.setRoom r
          { s.room r with
            lyrics := (s.room r).lyrics.evaluate (s.room r).timeline.clock (s.room r).settings.preroll
              (s.room r).settings.linger } with
        link := if (s.room r).lyrics.lines.any (·.overdue (s.room r).timeline.clock)
          then s.link.hear (s.room r).mask r .lyricSkipped else s.link } := by
  simp only [State.evaluate, State.modRoom_eq, State.raise_eq_hear, State.room_setRoom_self]
  split <;> rfl

theorem State.room_evaluate_self (s : State) (r : RoomId) :
    (s.evaluate r).room r =
      { s.room r with
        lyrics := (s.room r).lyrics.evaluate (s.room r).timeline.clock (s.room r).settings.preroll
          (s.room r).settings.linger } := by
  rw [State.evaluate_eq]; exact State.room_setRoom_self ..

theorem State.nowPlaying_eq {e : Entry} (head : (s.room r).queue.head? = some e) :
    s.nowPlaying r = s.placeNews r e.owner .nowPlaying e.ticket := by
  simp only [State.nowPlaying, head]

theorem State.handClock_of_clock {clock : Nat} (now : (s.room r).timeline.clock = clock) :
    s.handClock r = (s.hand (.toGuard r clock)).hand (.toScore r clock) := by
  subst now; rfl

/-- The start of a cued song: the room PLAYING and its head's owner told so, and SONG_STARTED heard. -/
theorem State.started_eq {position : Nat} {e : Entry} {es : List Entry} (entries : (s.room r).queue.entries = e :: es) :
    ((s.modRoom r (Room.startSong position)).nowPlaying r).raise r .songStarted =
      { s.setRoom r
          { s.room r with
            phase := .playing
            timeline := { (s.room r).timeline with clock := position }
            cueTimer := .stopped
            markTimer := .running (s.room r).settings.markTimeout
            queue := { (s.room r).queue with entries := { e with state := .playing } :: es }
            line := (s.room r).line.placeNews e.owner ⟨.nowPlaying, e.ticket⟩ } with
        link := s.link.hear (s.room r).mask r .songStarted } := by
  have head : ((s.modRoom r (Room.startSong position)).room r).queue.head? = some { e with state := .playing } := by
    rw [State.room_modRoom_self]
    exact congrArg RequestQueue.head? (RequestQueue.setHead_of_entries entries .playing)
  simp only [State.nowPlaying_eq head, State.placeNews, State.modRoom_modRoom, State.raise_eq_hear,
    State.room_setRoom_self, Room.startSong, RequestQueue.setHead_of_entries entries, State.setRoom_link]

/-- A cued song starts at a position held at its length, the lines are evaluated, and the new clock is handed to its
other two readers. -/
theorem State.songStart_of_cueing {position len : Nat} {e : Entry} {es : List Entry}
    (cueing : (s.room r).phase = .cueing) (entries : (s.room r).queue.entries = e :: es)
    (length : (s.room r).timeline.songLength = some len) :
    s.songStart r position =
      ((((({ s.setRoom r
            { s.room r with
              phase := .playing
              timeline := { (s.room r).timeline with clock := min position len }
              cueTimer := .stopped
              markTimer := .running (s.room r).settings.markTimeout
              queue := { (s.room r).queue with entries := { e with state := .playing } :: es }
              line := (s.room r).line.placeNews e.owner ⟨.nowPlaying, e.ticket⟩ } with
          link := s.link.hear (s.room r).mask r .songStarted }).evaluate r).hand
            (.toGuard r (min position len))).hand (.toScore r (min position len))),
        if position ≤ len then .ok else .okClamped) := by
  have status : (if len < position then Status.okClamped else .ok) = if position ≤ len then .ok else .okClamped := by
    rw [← ite_not]; exact if_congr not_lt rfl rfl
  rw [State.songStart, if_pos cueing, length]
  dsimp only [Option.getD_some]
  rw [State.started_eq entries, status, State.handClock_of_clock (clock := min position len)]
  rw [State.room_evaluate_self, State.room_mk_rooms, State.room_setRoom_self]

theorem State.songStart_elsewhere {position : Nat} (other : (s.room r).phase ≠ .cueing) :
    s.songStart r position = (s, .busy) := if_neg other

theorem exec_songStart {args : List Byte} (credit : s.takesCells = true) (room : b.toNat = r.val)
    (length : args.length = 4) :
    exec (.songStart b tag args) s =
      .next ((s.songStart r (u32 args 0)).1.answer ⟨tag, b, (s.songStart r (u32 args 0)).2, 66, []⟩).startUplink :=
  finish_command_room .songStart credit room (by simp [lengthAllowed, RoomCommand.argBytes, length])

/-! ## Holds removed (R10) -/

/-- A held room returns to PLAYING: its reasons empty, its mark timer started, RESUMED heard. -/
theorem State.release_eq (s : State) (r : RoomId) :
    s.release r =
      { s.setRoom r
          { s.room r with
            phase := .playing, reasons := ⟨false, false⟩
            markTimer := .running (s.room r).settings.markTimeout } with
        link := s.link.hear (s.room r).mask r .resumed } := by
  rw [State.release, State.raise_eq_hear, State.room_modRoom_self]; rfl

theorem State.resumeSong_of_paused (paused : (s.room r).phase = .paused) :
    s.resumeSong r =
      (if (s.room r).reasons.staff then s.removeReason r { (s.room r).reasons with staff := false } else s, .ok) := by
  simp only [State.resumeSong, paused]

theorem State.resumeSong_of_playing (playing : (s.room r).phase = .playing) : s.resumeSong r = (s, .ok) := by
  simp only [State.resumeSong, playing]

theorem State.resumeSong_elsewhere
    (other : (s.room r).phase = .dark ∨ (s.room r).phase = .attract ∨ (s.room r).phase = .cueing ∨
      (s.room r).phase = .result) : s.resumeSong r = (s, .busy) := by
  rcases other with phase | phase | phase | phase <;> simp only [State.resumeSong, phase]

theorem exec_resume (credit : s.takesCells = true) (room : b.toNat = r.val) :
    exec (.resume b tag []) s =
      .next ((s.resumeSong r).1.answer ⟨tag, b, (s.resumeSong r).2, 69, []⟩).startUplink :=
  finish_command_room .resume credit room rfl

/-! ## SKIP and SET_TEMPO (R13, R27) -/

/-- The entries behind the head, where no other has its ticket, are those of a queue that it has left. -/
theorem RequestQueue.without_head {q : RequestQueue} {e : Entry} {es : List Entry} (entries : q.entries = e :: es)
    (others : ∀ x ∈ es, x.ticket ≠ e.ticket) : q.without e = q.afterHead e es :=
  RequestQueue.remove_head entries others

theorem State.skipSong_of_open (opened : (s.room r).phase.songOpen = true) :
    s.skipSong r = (s.abort r false, .ok) := by
  rw [State.skipSong, if_pos opened]

theorem State.skipSong_elsewhere (none : (s.room r).phase.songOpen = false) : s.skipSong r = (s, .busy) := by
  rw [State.skipSong, if_neg (ne_true_of_eq_false none)]

theorem exec_skip (credit : s.takesCells = true) (room : b.toNat = r.val) :
    exec (.skip b tag []) s =
      .next ((s.skipSong r).1.answer ⟨tag, b, (s.skipSong r).2, 70, []⟩).startUplink :=
  finish_command_room .skip credit room rfl

/-- A clamp leaves exactly the numbers between its bounds. -/
theorem clampNat_eq_self_iff {lo hi n : Nat} (_ : lo ≤ hi) : clampNat lo hi n = n ↔ lo ≤ n ∧ n ≤ hi := by
  unfold clampNat; split_ifs <;> omega

theorem State.setTempo_of_open {tempo : Nat} (opened : (s.room r).phase.songOpen = true) :
    s.setTempo r tempo =
      (s.setRoom r { s.room r with timeline := { (s.room r).timeline with tempo := max 80 (min 120 tempo) } },
        if 80 ≤ tempo ∧ tempo ≤ 120 then .ok else .okClamped) := by
  simp only [State.setTempo, if_pos opened, State.modRoom_eq]
  rw [clampNat_eq_max_min (by decide : 80 ≤ 120)]
  congr 1
  refine if_congr ?_ rfl rfl
  rw [← clampNat_eq_max_min (by decide : 80 ≤ 120), clampNat_eq_self_iff (by decide)]

theorem State.setTempo_elsewhere {tempo : Nat} (closed : (s.room r).phase.songOpen = false) :
    s.setTempo r tempo = (s, .busy) := by
  rw [State.setTempo, if_neg (ne_true_of_eq_false closed)]

theorem exec_setTempo {tempo : Byte} (credit : s.takesCells = true) (room : b.toNat = r.val) :
    exec (.setTempo b tag [tempo]) s =
      .next ((s.setTempo r tempo.toNat).1.answer ⟨tag, b, (s.setTempo r tempo.toNat).2, 71, []⟩).startUplink :=
  finish_command_room .setTempo credit room rfl

end

/-! ## The obligations -/

/-- Settles O11, by whether ROOM_OPEN finds the room DARK, and by what a close leaves. -/
theorem roomOpensAndCloses : Obligations.RoomOpensAndCloses := by
  refine ⟨fun s b tag r credit room => ?opens, fun s b tag r credit room => ?closes⟩
  case opens =>
    rw [exec_roomOpen credit room]
    refine ⟨fun dark => ?_, fun other => ?_⟩
    · rw [State.roomOpen_of_dark dark]
    · rw [State.roomOpen_of_open other]
  case closes =>
    rw [exec_roomClose credit room, State.closeRoom_eq]
    rfl

/-- Settles O12, by what a reset leaves: a close and the room's defaults. -/
theorem roomResetRestoresDefaults : Obligations.RoomResetRestoresDefaults := by
  intro s b tag r credit room
  rw [exec_roomReset credit room, State.resetRoom_eq]
  simp only [Room.toDefaults, RequestLine.tellAll_changed, RequestLine.tellAll_sent]
  rfl

/-- Settles O22, by whether SONG_START finds the room CUEING. -/
theorem songStartPlays : Obligations.SongStartPlays := by
  intro s b tag r args credit room length
  rw [exec_songStart credit room length]
  refine ⟨fun other => ?_, fun e es len cueing entries songLength => ?_⟩
  · rw [State.songStart_elsewhere other]
  · rw [State.songStart_of_cueing cueing entries songLength]

/-- Settles O25, by the room state and the reasons in which RESUME finds the room. -/
theorem resumeReleasesStaff : Obligations.ResumeReleasesStaff := by
  intro s b tag r credit room
  rw [exec_resume credit room]
  refine ⟨fun paused reasons => ?_, fun paused reasons => ?_, ?_, fun other => ?_⟩
  · rw [State.resumeSong_of_paused paused, reasons]
    simp only [State.removeReason, PauseReasons.empty, if_true, State.release_eq]
  · rw [State.resumeSong_of_paused paused, reasons]
    rfl
  · rintro (playing | ⟨paused, absent⟩)
    · rw [State.resumeSong_of_playing playing]
    · rw [State.resumeSong_of_paused paused, absent]
      rfl
  · rw [State.resumeSong_elsewhere other]

/-- Settles O26, by whether SKIP finds a song open. -/
theorem skipAbortsTheSong : Obligations.SkipAbortsTheSong := by
  intro s b tag r credit room
  rw [exec_skip credit room]
  refine ⟨fun other => ?_, fun e es opened entries others => ?_⟩
  · rw [State.skipSong_elsewhere (Phase.songOpen_eq_false other)]
  · rw [State.skipSong_of_open opened, State.abort_eq (RequestQueue.head?_of_entries entries),
      RequestQueue.without_head entries others]
    rfl

/-- Settles O27, by whether SET_TEMPO finds a song open. -/
theorem setTempoWithASongOpen : Obligations.SetTempoWithASongOpen := by
  intro s b tag tempo r credit room
  rw [exec_setTempo credit room]
  refine ⟨fun opened => ?_, fun other => ?_⟩
  · rw [State.setTempo_of_open (Phase.songOpen_iff.2 opened)]
  · rw [State.setTempo_elsewhere (Phase.songOpen_eq_false other)]

end Sys2Proof.Machine
end

section
/-! SUPPORT. How a song is opened, refused, removed and ended (R11, R126 to R128, R151 to R153, R159 to R162): the
leaving of an entry as one written-out update before its offer trigger, a room at its song's opening, the end guard's
test of a clock change, and the scores of a result record. -/

namespace Sys2Proof.Machine

/-! ## Taking what was handed on -/

/-- The oldest item that an event accepts is taken from among the others and acted on. -/
theorem State.takeHanded_of_first {α : Type} {f : HandOver → Option α} {s : State} {before rest : List HandOver}
    {h : HandOver} {x : α} (first : ∀ y ∈ before, f y = none) (accepted : f h = some x) (act : α → State → State) :
    ({ s with handed := before ++ h :: rest }).takeHanded f act = act x { s with handed := before ++ rest } := by
  simp only [State.takeHanded, takeFirst_append first accepted]

theorem HandOver.guardOf_self (r : RoomId) (t : Nat) : HandOver.guardOf r (.toGuard r t) = some t := if_pos rfl

/-- No item is accepted among those that hold no clock change for a room's end guard. -/
theorem HandOver.guardOf_eq_none {r : RoomId} {before : List HandOver} (absent : ∀ t, HandOver.toGuard r t ∉ before) :
    ∀ y ∈ before, HandOver.guardOf r y = none := by
  intro y member
  cases y with
  | toGuard q t =>
    have other : q ≠ r := fun same => absent t (same ▸ member)
    exact if_neg other
  | _ => rfl

section

variable {s : State} {b tag : Byte} {r : RoomId} {e : Entry}

/-! ## Entries that leave by a queue change (R151 to R153) -/

/-- The entries around one that leaves are those of the queue that it has left. -/
theorem RequestQueue.without_of_split {q : RequestQueue} {before after : List Entry}
    (entries : q.entries = before ++ e :: after) (others : ∀ x ∈ before ++ after, x.ticket ≠ e.ticket) :
    q.without e = q.afterHead e (before ++ after) := by
  have left : q.entries.filter (fun x => x.ticket ≠ e.ticket) = before ++ after := by
    rw [← filter_ticket_of_ne others, entries, List.filter_append, List.filter_append,
      List.filter_cons_of_neg (by simp)]
  simp only [RequestQueue.without, RequestQueue.remove, RequestQueue.afterHead, left]

/-- An entry leaves, the room's line is told of it, and the queue change is noted before its offer trigger. -/
theorem State.leave_eq (s : State) (r : RoomId) (e : Entry) (tell : RequestLine → RequestLine) :
    ((s.removeEntry r e).modRoom r fun rm => { rm with line := tell rm.line }).queueChange r =
      ({ s.setRoom r
          { s.room r with queue := (s.room r).queue.without e, line := tell (s.room r).line } with
        link := s.link.hear (s.room r).mask r .queueChanged }).offerTrigger r := by
  simp only [State.queueChange, State.noteQueueChange, State.removeEntry, State.raise_eq_hear, State.modRoom_eq,
    State.room_setRoom_self, State.setRoom_setRoom, State.setRoom_link, State.room_mk_rooms]
  congr 1
  simp only [State.setRoom, Vector.set_set]
  rfl

/-- An entry that waits is cancelled by leaving the queue, its owner told when `news` says so (R152). -/
theorem State.cancelEntry_of_waiting (waiting : e.state = .queued ∨ e.state = .offered) (news : Bool) :
    s.cancelEntry r e news =
      ({ s.setRoom r
          { s.room r with queue := (s.room r).queue.without e, line := (s.room r).line.tellIf news e } with
        link := s.link.hear (s.room r).mask r .queueChanged }).offerTrigger r := by
  have told : (if news then (s.removeEntry r e).placeNews r e.owner .cancelled e.ticket else s.removeEntry r e) =
      (s.removeEntry r e).modRoom r fun rm => { rm with line := rm.line.tellIf news e } := by
    cases news with
    | true => rfl
    | false => exact (State.setRoom_room ..).symm
  rw [← State.leave_eq s r e (RequestLine.tellIf news e), ← told]
  rcases waiting with state | state <;> simp only [State.cancelEntry, state]

/-- An entry of the open song is cancelled by the abort of that song (R152). -/
theorem State.cancelEntry_of_singing (singing : e.state = .loading ∨ e.state = .playing) (news : Bool) :
    s.cancelEntry r e news = s.abort r news := by
  rcases singing with state | state <;> simp only [State.cancelEntry, state]

theorem State.queueRemove_of_absent {ticket : Nat} (absent : ∀ x ∈ (s.room r).queue.entries, x.ticket ≠ ticket) :
    s.queueRemove r ticket = (s, .stale) := by
  simp only [State.queueRemove, RequestQueue.find?_eq_none absent]

theorem State.queueRemove_of_found {ticket : Nat} (found : (s.room r).queue.find? ticket = some e) :
    s.queueRemove r ticket = (s.cancelEntry r e true, .ok) := by
  simp only [State.queueRemove, found]

theorem exec_queueRemove {ticket : Byte} (credit : s.takesCells = true) (room : b.toNat = r.val) :
    exec (.queueRemove b tag [ticket]) s =
      .next ((s.queueRemove r ticket.toNat).1.answer ⟨tag, b, (s.queueRemove r ticket.toNat).2, 81, []⟩).startUplink :=
  finish_command_room .queueRemove credit room rfl

/-! ## SONG_REFUSE (R161) -/

theorem State.songRefuse_of_waiting (head : (s.room r).queue.head? = some e)
    (waiting : e.state = .queued ∨ e.state = .offered) :
    s.songRefuse r e.ticket =
      (({ s.setRoom r
          { s.room r with
            queue := (s.room r).queue.without e
            line := (s.room r).line.placeNews e.owner ⟨.refusedByServer, e.ticket⟩ } with
        link := s.link.hear (s.room r).mask r .queueChanged }).offerTrigger r, .ok) := by
  rw [← State.leave_eq s r e fun ln => ln.placeNews e.owner ⟨.refusedByServer, e.ticket⟩]
  simp only [State.songRefuse, head, waiting, and_self, if_true]
  rfl

/-- Any other ticket than that of a waiting head is stale. -/
theorem State.songRefuse_of_stale {ticket : Nat}
    (stale : ∀ e, (s.room r).queue.entries.head? = some e → e.ticket = ticket →
      e.state = .loading ∨ e.state = .playing) :
    s.songRefuse r ticket = (s, .stale) := by
  cases head : (s.room r).queue.head? with
  | none => simp only [State.songRefuse, head]
  | some e =>
    have kept : ¬(e.ticket = ticket ∧ (e.state = .queued ∨ e.state = .offered)) := by
      rintro ⟨same, waiting⟩
      rcases stale e head same with state | state <;> simp [state] at waiting
    simp only [State.songRefuse, head, kept, if_false]

theorem exec_songRefuse {ticket reason : Byte} (credit : s.takesCells = true) (room : b.toNat = r.val) :
    exec (.songRefuse b tag [ticket, reason]) s =
      .next ((s.songRefuse r ticket.toNat).1.answer ⟨tag, b, (s.songRefuse r ticket.toNat).2, 65, []⟩).startUplink :=
  finish_command_room .songRefuse credit room rfl

/-! ## SONG_OPEN (R159, R160) -/

theorem RequestQueue.opens_of_head {q : RequestQueue} {ticket : Nat} (head : q.head? = some e) (same : e.ticket = ticket)
    (ready : e.state = .offered ∨ (e.state = .queued ∧ q.lapsed = some e.ticket)) : q.opens ticket = some e := by
  subst same
  simp only [RequestQueue.opens, head, ready, and_self, if_true]

theorem RequestQueue.opens_eq_none {q : RequestQueue} {ticket : Nat}
    (unready : ∀ e, q.entries.head? = some e → e.ticket ≠ ticket ∨
      (e.state ≠ .offered ∧ (e.state ≠ .queued ∨ q.lapsed ≠ some e.ticket))) : q.opens ticket = none := by
  cases head : q.head? with
  | none => simp only [RequestQueue.opens, head]
  | some e =>
    have kept : ¬(e.ticket = ticket ∧ (e.state = .offered ∨ (e.state = .queued ∧ q.lapsed = some ticket))) := by
      rintro ⟨rfl, ready⟩
      rcases unready e head with other | ⟨unoffered, lapsed⟩
      · exact other rfl
      · exact ready.elim unoffered fun ⟨queued, same⟩ => lapsed.elim (· queued) (· same)
    simp only [RequestQueue.opens, head, kept, if_false]

section

variable {ticket length tempo : Nat}

theorem State.songOpen_of_dark (dark : (s.room r).phase = .dark) : s.songOpen r ticket length tempo = (s, .busy) :=
  if_pos dark

theorem State.songOpen_of_no_length (other : (s.room r).phase ≠ .dark) :
    s.songOpen r ticket 0 tempo = (s, .badRecord) := by
  rw [State.songOpen, if_neg other, if_pos rfl]

theorem State.songOpen_of_stale (other : (s.room r).phase ≠ .dark) (long : length ≠ 0)
    (stale : (s.room r).phase ≠ .attract ∨ (s.room r).queue.opens ticket = none) :
    s.songOpen r ticket length tempo = (s, .stale) := by
  rw [State.songOpen, if_neg other, if_neg long]
  rcases stale with elsewhere | unready
  · rw [if_pos elsewhere]
  · simp only [unready, ite_self]

/-- A song's length and tempo are taken as given exactly when they lie within their ranges. -/
theorem openStatus_iff :
    min length 1800000 = length ∧ (tempo = 0 ∨ clampNat 80 120 tempo = tempo) ↔
      length ≤ 1800000 ∧ (tempo = 0 ∨ (80 ≤ tempo ∧ tempo ≤ 120)) := by
  rw [clampNat_eq_self_iff (by decide), min_eq_left_iff]

/-- The head's song is opened: the room CUEING with the song's values, its clock changes dropped. -/
theorem State.songOpen_of_ready (attract : (s.room r).phase = .attract) (long : length ≠ 0)
    (opens : (s.room r).queue.opens ticket = some e) :
    s.songOpen r ticket length tempo =
      ({ s.setRoom r ((s.room r).openSong e (min length 1800000) ((s.room r).openTempo tempo)) with
          handed := s.withoutClockChanges r },
        if length ≤ 1800000 ∧ (tempo = 0 ∨ (80 ≤ tempo ∧ tempo ≤ 120)) then .ok else .okClamped) := by
  have lit : (s.room r).phase ≠ .dark := by simp [attract]
  rw [State.songOpen, if_neg lit, if_neg long, if_neg (not_not.2 attract)]
  simp only [opens]
  exact congrArg (Prod.mk _) (if_congr openStatus_iff rfl rfl)

end

theorem exec_songOpen {args : List Byte} (credit : s.takesCells = true) (room : b.toNat = r.val)
    (length : args.length = 6) :
    exec (.songOpen b tag args) s =
      .next ((s.songOpen r (u8 args 0) (u32 args 1) (u8 args 5)).1.answer
        ⟨tag, b, (s.songOpen r (u8 args 0) (u32 args 1) (u8 args 5)).2, 64, []⟩).startUplink :=
  finish_command_room .songOpen credit room (by simp [lengthAllowed, RoomCommand.argBytes, length])

/-! ## Song ends (R11) -/

/-- A song end where no other entry has the head's ticket (R11). -/
theorem State.endSong_of_entries {es : List Entry} (entries : (s.room r).queue.entries = e :: es)
    (others : ∀ x ∈ es, x.ticket ≠ e.ticket) :
    s.endSong r =
      { s.setRoom r ((s.room r).songEnded e ((s.room r).queue.afterHead e es)) with
        engine := s.engine.voided r
        link := (s.link.hear (s.room r).mask r .queueChanged).hear (s.room r).mask r .result } := by
  rw [State.endSong_eq (RequestQueue.head?_of_entries entries), RequestQueue.without_head entries others]

theorem State.songEnd_of_running (running : (s.room r).phase = .playing ∨ (s.room r).phase = .paused) :
    s.songEnd r = (s.endSong r, .ok) := by
  rcases running with phase | phase <;> simp only [State.songEnd, phase]

theorem State.songEnd_elsewhere
    (other : (s.room r).phase = .dark ∨ (s.room r).phase = .attract ∨ (s.room r).phase = .cueing ∨
      (s.room r).phase = .result) : s.songEnd r = (s, .busy) := by
  rcases other with phase | phase | phase | phase <;> simp only [State.songEnd, phase]

theorem exec_songEnd (credit : s.takesCells = true) (room : b.toNat = r.val) :
    exec (.songEnd b tag []) s =
      .next ((s.songEnd r).1.answer ⟨tag, b, (s.songEnd r).2, 67, []⟩).startUplink :=
  finish_command_room .songEnd credit room rfl

/-- A clock value at the guard of a running song ends it. -/
theorem State.testGuard_of_reached {clock len : Nat}
    (running : (s.room r).phase = .playing ∨ (s.room r).phase = .paused)
    (length : (s.room r).timeline.songLength = some len) (reached : len + 3000 ≤ clock) :
    s.testGuard r clock = s.endSong r := by
  have guarded : (s.room r).timeline.guard = some (len + 3000) := congrArg (Option.map _) length
  rcases running with phase | phase <;> simp only [State.testGuard, phase, guarded, reached, if_true]

/-- Short of the guard, and with no song running, it ends nothing. -/
theorem State.testGuard_of_short {clock : Nat}
    (short : (s.room r).phase ≠ .playing ∧ (s.room r).phase ≠ .paused ∨
      (s.room r).timeline.songLength.all (fun len => clock < len + 3000) = true) :
    s.testGuard r clock = s := by
  have below (g : Nat) (guarded : (s.room r).timeline.guard = some g)
      (running : (s.room r).phase = .playing ∨ (s.room r).phase = .paused) : ¬g ≤ clock := by
    obtain ⟨len, length, rfl⟩ := Option.map_eq_some_iff.1 guarded
    rcases short with ⟨unplayed, unpaused⟩ | before
    · exact absurd running (not_or.2 ⟨unplayed, unpaused⟩)
    · rw [length] at before
      exact not_le.2 (of_decide_eq_true before)
  unfold State.testGuard
  split
  next g phase guarded => exact if_neg (below g guarded (.inl phase))
  next g phase guarded => exact if_neg (below g guarded (.inr phase))
  next => rfl

theorem exec_endGuard_first {t : Nat} {before rest : List HandOver} (first : ∀ x, HandOver.toGuard r x ∉ before) :
    exec (.endGuard r) { s with handed := before ++ .toGuard r t :: rest } =
      .next (({ s with handed := before ++ rest }).testGuard r t).startUplink :=
  congrArg finish (State.takeHanded_of_first (HandOver.guardOf_eq_none first) (HandOver.guardOf_self r t) _)

/-! ## Scores (R126, R127) -/

/-- The singer entry of a microphone is scored unless its part is NONE or nothing was graded (R128). -/
theorem Room.singerEntry_eq (rm : Room) (m : Mic) :
    rm.singerEntry m =
      if rm.settings.micParts.get m = .none ∨ (rm.singers.get m).graded = 0 then
        { part := rm.settings.micParts.get m, notScored := true, pitch := 0, timing := 0, final := 0
          counts := { rm.singers.get m with runStart := none }, dropped := (rm.mics.get m).dropped }
      else
        { part := rm.settings.micParts.get m, notScored := false, pitch := (rm.singers.get m).pitch
          timing := (rm.singers.get m).timing, final := (rm.singers.get m).final
          counts := { rm.singers.get m with runStart := none }, dropped := (rm.mics.get m).dropped } := by
  unfold Room.singerEntry
  split <;> rename_i unscored <;> simp only [unscored, decide_true, decide_false, if_true, if_false]

/-- HIT and NEAR are among the graded frames, so that no pitch score lies above 1000. -/
theorem Singer.pitch_le {x : Singer} (agree : x.CountsAgree) : x.pitch ≤ 1000 := by
  obtain ⟨grades, -, -, -⟩ := agree
  exact Nat.div_le_of_le_mul (by omega)

theorem Singer.timing_le {x : Singer} (agree : x.CountsAgree) : x.timing ≤ 1000 := by
  have ⟨_, verdicts, _, _⟩ := agree
  unfold Singer.timing
  split
  · exact Singer.pitch_le agree
  · exact Nat.div_le_of_le_mul (by nlinarith)

theorem Singer.final_le {x : Singer} (agree : x.CountsAgree) : x.final ≤ 1000 := by
  have pitch := Singer.pitch_le agree
  have timing := Singer.timing_le agree
  unfold Singer.final
  omega

end

/-! ## The obligations -/

/-- Settles O20, by the checks of R159 in their order and the room at its song's opening. -/
theorem songOpenCues : Obligations.SongOpenCues := by
  intro s b tag r args credit room length
  rw [exec_songOpen credit room length]
  refine ⟨fun dark => ?_, fun other empty => ?_, fun other long stale => ?_, fun e es attract long entries same ready => ?_⟩
  · rw [State.songOpen_of_dark dark]
  · rw [empty, State.songOpen_of_no_length other]
  · rw [State.songOpen_of_stale other long (stale.imp_right RequestQueue.opens_eq_none)]
  · have opens := RequestQueue.opens_of_head (RequestQueue.head?_of_entries entries) same ready
    rw [State.songOpen_of_ready attract long opens]
    simp only [Room.openSong, RequestQueue.setHead_of_entries entries, Room.openTempo,
      clampNat_eq_max_min (by decide : 80 ≤ 120), min_comm (u32 args 1)]
    rfl

/-- Settles O21, by whether the ticket is that of a head which still waits. -/
theorem songRefuseRemovesTheHead : Obligations.SongRefuseRemovesTheHead := by
  intro s b tag ticket reason r credit room
  rw [exec_songRefuse credit room]
  refine ⟨fun e es entries same waiting others => ?_, fun stale => ?_⟩
  · rw [← same, State.songRefuse_of_waiting (RequestQueue.head?_of_entries entries) waiting,
      RequestQueue.without_head entries others]
  · rw [State.songRefuse_of_stale stale]

/-- Settles O23, by SONG_END and the end guard's test, and by the scores that a song end computes. -/
theorem songEndMakesTheResult : Obligations.SongEndMakesTheResult := by
  refine ⟨?ends, fun s b tag r credit room other => ?busy, fun s r t before rest first short => ?guard,
    fun rm m x part p t f singer mic pitch timing final => ?scores⟩
  case ends =>
    rintro s r e es running entries others u rfl
    refine ⟨fun b tag credit room => ?_, fun len t before rest length reached first => ?_⟩
    · rw [exec_songEnd credit room, State.songEnd_of_running running, State.endSong_of_entries entries others]
      rfl
    · rw [exec_endGuard_first (s := s) first,
        State.testGuard_of_reached (s := { s with handed := before ++ rest }) running length reached,
        State.endSong_of_entries (s := { s with handed := before ++ rest }) entries others]
      rfl
  case busy => rw [exec_songEnd credit room, State.songEnd_elsewhere other]
  case guard => rw [exec_endGuard_first (s := s) first, State.testGuard_of_short (s := { s with handed := before ++ rest }) short]
  case scores =>
    subst singer mic pitch timing final
    exact ⟨Room.singerEntry_eq rm m, rfl, fun agree =>
      ⟨Singer.pitch_le agree, Singer.timing_le agree, Singer.final_le agree⟩⟩

/-- Settles O29, by whether an entry holds the ticket and by that entry's state. -/
theorem queueRemoveCancelsAnEntry : Obligations.QueueRemoveCancelsAnEntry := by
  intro s b tag ticket r credit room
  rw [exec_queueRemove credit room]
  refine ⟨fun absent => ?_, fun before after e entries same others => ?_⟩
  · rw [State.queueRemove_of_absent absent]
  have found := RequestQueue.find?_of_split entries others
  rw [← same, State.queueRemove_of_found found]
  refine ⟨fun waiting => ?_, fun first singing => ?_⟩
  · rw [State.cancelEntry_of_waiting waiting, RequestQueue.without_of_split entries others]
    rfl
  · subst first
    rw [State.cancelEntry_of_singing singing, State.abort_eq (RequestQueue.head?_of_entries entries),
      RequestQueue.without_head entries others]
    rfl

end Sys2Proof.Machine
end

section
/-! SUPPORT. How the queue manager answers a REQUEST and a CANCEL (R140, R148 to R152): the message taken from among
those handed on, the place behind the last priority entry, the first free ticket, and the admission checks in their
order. -/

namespace Sys2Proof.Machine

/-! ## Places (R150) -/

/-- Where no entry from a place on has priority, the last with priority stands before it. -/
theorem throughPriority_le {es : List Entry} {p : Nat} (plain : ∀ e ∈ es.drop p, e.priority = false) :
    throughPriority es ≤ p := by
  induction es generalizing p with
  | nil => exact Nat.zero_le p
  | cons e es ih =>
    cases p with
    | zero =>
      obtain ⟨head, others⟩ := List.forall_mem_cons.1 plain
      have none : throughPriority es = 0 := Nat.le_zero.1 (ih (p := 0) others)
      simp [throughPriority, none, head]
    | succ p =>
      have behind := ih (p := p) plain
      simp only [throughPriority]
      split_ifs <;> omega

/-- An entry with priority stands at or before the last with priority. -/
theorem lt_throughPriority {es : List Entry} {i : Nat} {e : Entry} (stands : es[i]? = some e)
    (priority : e.priority = true) : i < throughPriority es := by
  induction es generalizing i with
  | nil => cases stands
  | cons x es ih =>
    cases i with
    | zero =>
      obtain rfl : x = e := Option.some.inj stands
      simp only [throughPriority, priority, if_true]
      split_ifs <;> omega
    | succ i =>
      have behind := ih (i := i) stands
      rw [throughPriority, if_pos (by omega)]
      omega

/-- The place of an admitted entry: at the end, or behind the last priority entry and an active head. -/
theorem RequestQueue.placeFor_eq {q : RequestQueue} {priority : Bool} {p : Nat}
    (place : priority = false ∧ p = q.entries.length ∨
      priority = true ∧ p ≤ q.entries.length ∧ (∀ e ∈ q.entries.drop p, e.priority = false) ∧
        (∀ e ∈ q.entries.head?, e.state ≠ .queued → 1 ≤ p) ∧
        (∀ i, p = i + 1 → ∃ e, q.entries[i]? = some e ∧ (e.priority = true ∨ (i = 0 ∧ e.state ≠ .queued)))) :
    q.placeFor priority = p := by
  rcases place with ⟨rfl, rfl⟩ | ⟨rfl, -, plain, active, ahead⟩
  · rfl
  · have past := throughPriority_le plain
    have behind : (if q.head?.any Entry.active then 1 else 0) ≤ p := by
      cases head : q.head? with
      | none => exact Nat.zero_le p
      | some e =>
        by_cases queued : e.state = .queued
        · simp [Entry.active, queued]
        · simpa [Entry.active, queued] using active e head queued
    refine le_antisymm (max_le past behind) ?_
    cases p with
    | zero => exact Nat.zero_le _
    | succ i =>
      obtain ⟨e, stands, priority | ⟨rfl, acts⟩⟩ := ahead i rfl
      · exact (lt_throughPriority stands priority).trans_le (le_max_left ..)
      · have head : q.head? = some e := by rw [RequestQueue.head?, List.head?_eq_getElem?]; exact stands
        have is : (q.head?.any Entry.active) = true := by simp [head, Entry.active, acts]
        simp only [RequestQueue.placeFor, is, if_true]
        exact le_max_right ..

/-! ## Tickets (R148) -/

/-- The first free ticket from the counter on is the one given. -/
theorem RequestQueue.ticketToGive_eq {q : RequestQueue} {ticket k : Nat} (low : 1 ≤ q.counter) (high : q.counter ≤ 250)
    (unheld : ∀ e ∈ q.entries, e.ticket ≠ ticket) (near : k < 250) (named : ticket = (q.counter - 1 + k) % 250 + 1)
    (held : ∀ j < k, ∃ e ∈ q.entries, e.ticket = (q.counter - 1 + j) % 250 + 1) : q.ticketToGive = ticket := by
  have after (j : Nat) : ticketAfter q.counter j = (q.counter - 1 + j) % 250 + 1 := ticketAfter_eq low high j
  rw [RequestQueue.ticketToGive, RequestQueue.freeTicket_of_first (k := k) (tries := Config.ticketMax) near.le, after, named]
  · intro j less
    obtain ⟨e, member, same⟩ := held j less
    rw [after, RequestQueue.find?, List.find?_isSome]
    exact ⟨e, member, decide_eq_true same⟩
  · rw [after, ← named, RequestQueue.find?_eq_none unheld]
    rfl

section

variable {s : State} {x : HandedRequest}

/-! ## Admission checks (R149) -/

/-- The entries that count toward a handset's limit. -/
theorem RequestQueue.waitingOf_eq (q : RequestQueue) (h : HandsetId) :
    q.waitingOf h = (q.entries.filter fun e => e.owner = h && (e.state = .queued || e.state = .offered)).length := rfl

theorem State.refusal_of_dark (dark : (s.room x.room).phase = .dark) : s.refusal x = some .roomClosed := if_pos dark

theorem State.refusal_of_full (lit : (s.room x.room).phase ≠ .dark)
    (full : 32 ≤ (s.room x.room).queue.entries.length ∨ 96 ≤ s.entriesUsed) : s.refusal x = some .queueFull :=
  (if_neg lit).trans (if_pos full)

/-- A place is free in the room's queue and in the pool. -/
abbrev State.HasPlace (s : State) (r : RoomId) : Prop :=
  (s.room r).phase ≠ .dark ∧ (s.room r).queue.entries.length < 32 ∧ s.entriesUsed < 96

theorem State.refusal_of_place (place : s.HasPlace x.room) :
    s.refusal x =
      if (s.room x.room).queue.entries.any (fun e => e.song = x.song) && !(s.room x.room).settings.allowRepeats then
        some .duplicate
      else if x.sender ≠ HandsetId.staff ∧
          (s.room x.room).settings.handsetLimit ≤ (s.room x.room).queue.waitingOf x.sender then
        some .handsetLimit
      else none := by
  obtain ⟨lit, own, pool⟩ := place
  have free : ¬(Config.entriesPerRoom ≤ (s.room x.room).queue.entries.length ∨ Config.entryPool ≤ s.entriesUsed) :=
    not_or.2 ⟨not_le.2 own, not_le.2 pool⟩
  rw [State.refusal, if_neg lit, if_neg free]

/-- The song waits in the queue already, and repeats are off. -/
theorem duplicate_iff {es : List Entry} {song : Nat} {repeats : Bool} :
    (es.any (fun e => e.song = song) && !repeats) = true ↔ (∃ e ∈ es, e.song = song) ∧ repeats = false := by
  simp

/-- It waits nowhere there, or repeats are on. -/
theorem duplicate_eq_false {es : List Entry} {song : Nat} {repeats : Bool}
    (other : (∀ e ∈ es, e.song ≠ song) ∨ repeats = true) : ¬(es.any (fun e => e.song = song) && !repeats) = true := by
  rw [duplicate_iff]
  rintro ⟨⟨e, member, same⟩, off⟩
  rcases other with none | on
  · exact none e member same
  · exact Bool.false_ne_true (off.symm.trans on)

/-- Handset 15 is the staff handset. -/
theorem HandsetId.eq_staff_iff {h : HandsetId} : h = HandsetId.staff ↔ h.val + 1 = 15 := by
  rw [Fin.ext_iff]
  show h.val = 14 ↔ h.val + 1 = 15
  omega

/-! ## Messages taken (R140) -/

/-- The oldest REQUEST of its room is taken, and its answer returned. -/
theorem exec_request_first {before rest : List HandOver} (first : ∀ y : HandedRequest, .request y ∈ before → y.room ≠ x.room) :
    exec (.request x.room) { s with handed := before ++ .request x :: rest } =
      .next ((({ s with handed := before ++ rest }).takeRequest x).1.returnAnswer x.room x.sender x.bit x.live
        (({ s with handed := before ++ rest }).takeRequest x).2).startUplink := by
  refine congrArg finish ?_
  rw [State.request, takeFirst_append (y := x)]
  · intro z member
    cases z with
    | request y => exact if_neg (first y member)
    | _ => rfl
  · exact if_pos rfl

/-- The oldest CANCEL of its room likewise. -/
theorem exec_cancel_first {x : HandedCancel} {before rest : List HandOver}
    (first : ∀ y : HandedCancel, .cancel y ∈ before → y.room ≠ x.room) :
    exec (.cancel x.room) { s with handed := before ++ .cancel x :: rest } =
      .next ((({ s with handed := before ++ rest }).takeCancel x).1.returnAnswer x.room x.sender x.bit x.live
        (({ s with handed := before ++ rest }).takeCancel x).2).startUplink := by
  refine congrArg finish ?_
  rw [State.cancel, takeFirst_append (y := x)]
  · intro z member
    cases z with
    | cancel y => exact if_neg (first y member)
    | _ => rfl
  · exact if_pos rfl

theorem State.takeRequest_of_refused {code : RefusalCode} (refused : s.refusal x = some code) :
    s.takeRequest x = (s, .refused code) := by
  simp only [State.takeRequest, refused]

/-- An admitted request's entry stands in its place, by a queue change (R148 to R151). -/
theorem State.takeRequest_of_admitted {ticket p : Nat} (admitted : s.refusal x = none)
    (given : (s.room x.room).queue.ticketToGive = ticket) (place : (s.room x.room).queue.placeFor x.priority = p) :
    s.takeRequest x =
      (({ s.setRoom x.room
          { s.room x.room with queue := { (s.room x.room).queue with
              entries := (s.room x.room).queue.entries.take p ++ x.entry ticket :: (s.room x.room).queue.entries.drop p
              counter := nextTicket ticket, suspended := false } } with
          link := s.link.hear (s.room x.room).mask x.room .queueChanged }).offerTrigger x.room,
        .accepted ticket (p + 1)) := by
  subst given place
  simp only [State.takeRequest, admitted]
  exact congrArg (·, _) (State.queueChange_modRoom_queue s x.room
    { (s.room x.room).queue.insert ((s.room x.room).queue.placeFor x.priority)
      (x.entry (s.room x.room).queue.ticketToGive) with counter := nextTicket (s.room x.room).queue.ticketToGive })

/-! ## CANCEL by its checks (R152) -/

section

variable {x : HandedCancel} {e : Entry}

theorem State.takeCancel_of_absent (absent : ∀ e ∈ (s.room x.room).queue.entries, e.ticket ≠ x.ticket) :
    s.takeCancel x = (s, .refused .noTicket) := by
  simp only [State.takeCancel, RequestQueue.find?_eq_none absent]

theorem State.takeCancel_of_stranger (found : (s.room x.room).queue.find? x.ticket = some e) (other : e.owner ≠ x.sender)
    (guest : x.sender.val + 1 ≠ 15) : s.takeCancel x = (s, .refused .notOwner) := by
  simp only [State.takeCancel, found, if_pos (And.intro other (mt HandsetId.eq_staff_iff.1 guest))]

theorem State.takeCancel_of_allowed (found : (s.room x.room).queue.find? x.ticket = some e)
    (allowed : e.owner = x.sender ∨ x.sender.val + 1 = 15) :
    s.takeCancel x = (s.cancelEntry x.room e (e.owner ≠ x.sender), .cancelDone x.ticket) := by
  have kept : ¬(e.owner ≠ x.sender ∧ x.sender ≠ HandsetId.staff) := by
    rintro ⟨other, guest⟩
    exact allowed.elim other fun staff => guest (HandsetId.eq_staff_iff.2 staff)
  simp only [State.takeCancel, found, if_neg kept]

/-- The owner is told only of what another handset cancelled. -/
theorem RequestLine.tellIf_owner (ln : RequestLine) (e : Entry) (sender : HandsetId) :
    ln.tellIf (e.owner ≠ sender) e = if e.owner = sender then ln else ln.placeNews e.owner ⟨.cancelled, e.ticket⟩ := by
  by_cases own : e.owner = sender <;> simp [RequestLine.tellIf, own]

end

end

/-! ## The obligations -/

/-- Settles O54, by the first check that a REQUEST fails, and by the ticket and the place that it is given. -/
theorem requestsAreAdmitted : Obligations.RequestsAreAdmitted := by
  rintro s x before rest es first rfl reply rfl
  rw [exec_request_first (s := s) first]
  refine ⟨fun code failed => ?_, fun ticket p lit own pool fresh limit unheld near low high place => ?_⟩
  · have refused : ({ s with handed := before ++ rest } : State).refusal x = some code := by
      rcases failed with ⟨dark, rfl⟩ | ⟨lit, ⟨full, rfl⟩ | ⟨own, pool, failed⟩⟩
      · exact State.refusal_of_dark dark
      · exact State.refusal_of_full lit full
      · rw [State.refusal_of_place (s := { s with handed := before ++ rest }) ⟨lit, own, pool⟩]
        rcases failed with ⟨same, off, rfl⟩ | ⟨fresh, guest, limit, rfl⟩
        · exact if_pos (duplicate_iff.2 ⟨same, off⟩)
        · exact (if_neg (duplicate_eq_false fresh)).trans (if_pos ⟨mt HandsetId.eq_staff_iff.1 guest, limit⟩)
    rw [State.takeRequest_of_refused refused]
    rfl
  · obtain ⟨k, less, named, held⟩ := near
    have within : ¬(x.sender ≠ HandsetId.staff ∧
        (s.room x.room).settings.handsetLimit ≤ (s.room x.room).queue.waitingOf x.sender) := by
      rintro ⟨guest, reached⟩
      exact limit.elim (mt HandsetId.eq_staff_iff.2 guest) fun below => absurd reached (not_le.2 below)
    have admitted : ({ s with handed := before ++ rest } : State).refusal x = none :=
      (State.refusal_of_place (s := { s with handed := before ++ rest }) ⟨lit, own, pool⟩).trans
        ((if_neg (duplicate_eq_false fresh)).trans (if_neg within))
    rw [State.takeRequest_of_admitted admitted (RequestQueue.ticketToGive_eq low high unheld less named held)
      (RequestQueue.placeFor_eq place)]
    rfl

/-- Settles O55, by the checks of R152 and by the state of the entry that a CANCEL names. -/
theorem cancelsRemoveAnEntry : Obligations.CancelsRemoveAnEntry := by
  rintro s x older rest first reply rfl
  rw [exec_cancel_first (s := s) first]
  refine ⟨fun absent => ?_, fun before after e line entries same others told => ?_⟩
  · rw [State.takeCancel_of_absent (s := { s with handed := older ++ rest }) absent]
    rfl
  have found : (s.room x.room).queue.find? x.ticket = some e := same ▸ RequestQueue.find?_of_split entries others
  rw [← RequestLine.tellIf_owner] at told
  subst told
  refine ⟨fun other guest => ?_, fun allowed waiting => ?_, fun allowed alone singing => ?_⟩
  · rw [State.takeCancel_of_stranger (s := { s with handed := older ++ rest }) found other guest]
    rfl
  · rw [State.takeCancel_of_allowed (s := { s with handed := older ++ rest }) found allowed,
      State.cancelEntry_of_waiting waiting, ← RequestQueue.without_of_split entries others]
    rfl
  · subst alone
    rw [State.takeCancel_of_allowed (s := { s with handed := older ++ rest }) found allowed,
      State.cancelEntry_of_singing singing,
      State.abort_eq (s := { s with handed := older ++ rest }) (RequestQueue.head?_of_entries entries),
      ← RequestQueue.without_head entries others]
    rfl

end Sys2Proof.Machine
end

section
/-! SUPPORT. What the commands of the tables do (R16, R17, R40 to R43, R65, R66, R68, R172): when the record that a
payload carries is read and what is then read, the ranges that hold its numbers, and each command's effect. -/

namespace Sys2Proof.Machine

/-! ## Coded fields (R179) -/

theorem flagOf_of_le {n : Nat} (named : n ≤ 1) : flagOf n = some (decide (n = 1)) := by interval_cases n <;> rfl

theorem flagOf_bound {n : Nat} {f : Bool} (named : flagOf n = some f) : n ≤ 1 := by
  contrapose! named
  obtain ⟨k, rfl⟩ := Nat.exists_eq_add_of_le' named
  simp [flagOf]

theorem displayModeOf_of_le {n : Nat} (named : n ≤ 1) : displayModeOf n = some (if n = 0 then .hz60 else .hz50) := by
  interval_cases n <;> rfl

theorem displayModeOf_bound {n : Nat} {m : DisplayMode} (named : displayModeOf n = some m) : n ≤ 1 := by
  contrapose! named
  obtain ⟨k, rfl⟩ := Nat.exists_eq_add_of_le' named
  simp [displayModeOf]

theorem micPartOf_of_le {n : Nat} (named : n ≤ 2) :
    micPartOf n = some (if n = 1 then .a else if n = 2 then .b else .none) := by
  interval_cases n <;> rfl

theorem micPartOf_bound {n : Nat} {p : MicPart} (named : micPartOf n = some p) : n ≤ 2 := by
  contrapose! named
  obtain ⟨k, rfl⟩ := Nat.exists_eq_add_of_le' named
  simp [micPartOf]

/-- The kind that a code within 0..5 names. -/
def bandKindNamed (n : Nat) : BandKind :=
  match n with
  | 0 => .video | 1 => .lyricUpper | 2 => .lyricLower | 3 => .score | 4 => .queue | _ => .blank

theorem bandKindOf_of_le {n : Nat} (named : n ≤ 5) : bandKindOf n = some (bandKindNamed n) := by
  interval_cases n <;> rfl

theorem bandKindOf_bound {n : Nat} {k : BandKind} (named : bandKindOf n = some k) : n ≤ 5 := by
  contrapose! named
  obtain ⟨k, rfl⟩ := Nat.exists_eq_add_of_le' named
  simp [bandKindOf]

/-- The alignment that a code within 0..2 names. -/
def alignmentNamed (n : Nat) : Alignment := match n with | 0 => .left | 1 => .center | _ => .right

theorem alignmentOf_of_le {n : Nat} (named : n ≤ 2) : alignmentOf n = some (alignmentNamed n) := by
  interval_cases n <;> rfl

theorem alignmentOf_bound {n : Nat} {a : Alignment} (named : alignmentOf n = some a) : n ≤ 2 := by
  contrapose! named
  obtain ⟨k, rfl⟩ := Nat.exists_eq_add_of_le' named
  simp [alignmentOf]

/-- The values of a state mask byte are those of its four lowest bits. -/
theorem stateMaskOf_eq (n : Nat) :
    stateMaskOf n = ⟨n % 2 = 1, n / 2 % 2 = 1, n / 4 % 2 = 1, n / 8 % 2 = 1⟩ := by
  simp [stateMaskOf, Nat.testBit_eq_decide_div_mod_eq]

/-! ## Records of one kind in a row -/

theorem mapM_of_forall {α β : Type} {f : α → Option β} {g : α → β} {l : List α} (each : ∀ a ∈ l, f a = some (g a)) :
    l.mapM f = some (l.map g) := by
  induction l with
  | nil => rfl
  | cons a l ih =>
    obtain ⟨head, others⟩ := List.forall_mem_cons.1 each
    rw [List.mapM_cons, head, ih others]
    rfl

theorem mapM_of_exists {α β : Type} {f : α → Option β} {l : List α} (bad : ∃ a ∈ l, f a = none) : l.mapM f = none := by
  induction l with
  | nil => obtain ⟨a, member, -⟩ := bad; cases member
  | cons a l ih =>
    rw [List.mapM_cons]
    cases head : f a with
    | none => rfl
    | some b =>
      obtain ⟨x, member, fails⟩ := bad
      rcases List.mem_cons.1 member with rfl | later
      · cases head.symm.trans fails
      · rw [ih ⟨x, later, fails⟩]; rfl

section

variable {s : State} {b tag : Byte} {r : RoomId} {args : List Byte}

/-! ## ROOM_SETTINGS (R16, R17) -/

/-- A settings record is read when its five coded fields name values. -/
theorem readSettings_some {bs : List Byte} {t : Settings} (read : readSettings bs = some t) :
    u8 bs 0 ≤ 1 ∧ u8 bs 11 ≤ 1 ∧ u8 bs 20 ≤ 2 ∧ u8 bs 21 ≤ 2 ∧ u8 bs 22 ≤ 1 := by
  simp only [readSettings, Option.bind_eq_bind, Option.bind_eq_some_iff] at read
  obtain ⟨mode, display, octave, allowance, mic1, one, mic2, two, repeats, allowed, -⟩ := read
  exact ⟨displayModeOf_bound display, flagOf_bound allowance, micPartOf_bound one, micPartOf_bound two,
    flagOf_bound allowed⟩

theorem readSettings_of_coded {bs : List Byte} (display : u8 bs 0 ≤ 1) (allowance : u8 bs 11 ≤ 1) (one : u8 bs 20 ≤ 2)
    (two : u8 bs 21 ≤ 2) (repeats : u8 bs 22 ≤ 1) :
    readSettings bs = some
      { displayMode := if u8 bs 0 = 0 then .hz60 else .hz50, preroll := u16 bs 1, linger := u16 bs 3
        resultHold := u8 bs 5, offerTimeout := u8 bs 6, cueTimeout := u8 bs 7, markTimeout := u16 bs 8
        tolerance := u8 bs 10, octaveAllowance := decide (u8 bs 11 = 1), silenceThreshold := u32 bs 12
        voicingFactor := u8 bs 16, onsetWindow := u8 bs 17, keyGrace := u16 bs 18
        micParts := ⟨if u8 bs 20 = 1 then .a else if u8 bs 20 = 2 then .b else .none,
          if u8 bs 21 = 1 then .a else if u8 bs 21 = 2 then .b else .none⟩
        allowRepeats := decide (u8 bs 22 = 1), handsetLimit := u8 bs 23, defaultTempo := u8 bs 24
        digitBase := u16 bs 25 } := by
  simp only [readSettings, displayModeOf_of_le display, flagOf_of_le allowance, micPartOf_of_le one, micPartOf_of_le two,
    flagOf_of_le repeats]
  rfl

/-- What ROOM_SETTINGS writes of a record: its numbers held within their ranges, and its mic parts
unless a song is open. -/
theorem Room.allowed_eq (rm : Room) (t : Settings) :
    { t.clamped with micParts := rm.partsAllowed t } =
      { t with
        preroll := max 500 (min 5000 t.preroll), linger := min 3000 t.linger
        resultHold := max 3 (min 30 t.resultHold), offerTimeout := max 1 (min 10 t.offerTimeout)
        cueTimeout := max 2 (min 30 t.cueTimeout), markTimeout := max 100 (min 2000 t.markTimeout)
        tolerance := min 1 t.tolerance, silenceThreshold := min 409600 t.silenceThreshold
        voicingFactor := max 1 (min 16 t.voicingFactor), onsetWindow := max 20 (min 200 t.onsetWindow)
        keyGrace := min 500 t.keyGrace, handsetLimit := max 1 (min 8 t.handsetLimit)
        defaultTempo := max 80 (min 120 t.defaultTempo), digitBase := min 1014 t.digitBase
        micParts := if rm.phase = .cueing ∨ rm.phase = .playing ∨ rm.phase = .paused then rm.settings.micParts
          else t.micParts } := by
  simp (disch := decide) only [Settings.clamped, clampNat_eq_max_min, Nat.zero_max, Room.partsAllowed,
    Phase.songOpen_iff]

theorem State.roomSettings_of_unread (unread : readSettings args = none) : s.roomSettings r args = (s, .badRecord) := by
  simp only [State.roomSettings, unread]

theorem State.roomSettings_of_read {t : Settings} (read : readSettings args = some t) :
    s.roomSettings r args =
      (s.setRoom r { s.room r with settings := { t.clamped with micParts := (s.room r).partsAllowed t } },
        if { t.clamped with micParts := (s.room r).partsAllowed t } = t then .ok else .okClamped) := by
  simp only [State.roomSettings, read, State.modRoom_eq]

theorem exec_roomSettings (credit : s.takesCells = true) (room : b.toNat = r.val) (length : args.length = 27) :
    exec (.roomSettings b tag args) s =
      .next ((s.roomSettings r args).1.answer ⟨tag, b, (s.roomSettings r args).2, 19, []⟩).startUplink :=
  finish_command_room .roomSettings credit room (by simp [lengthAllowed, RoomCommand.argBytes, length])

/-! ## NOTICE_MASK (R172) -/

/-- A mask is read when its twelve bytes are flags. -/
theorem readMask_some {bs : List Byte} {m : NoticeMask} (read : readMask bs = some m) : ∀ i < 12, u8 bs i ≤ 1 := by
  simp only [readMask, Option.bind_eq_bind, Option.bind_eq_some_iff] at read
  obtain ⟨_, f0, _, f1, _, f2, _, f3, _, f4, _, f5, _, f6, _, f7, _, f8, _, f9, _, f10, _, f11, -⟩ := read
  intro i within
  interval_cases i <;> exact flagOf_bound ‹_›

theorem readMask_of_other {bs : List Byte} (length : bs.length = 12) (other : ∃ x ∈ bs, x ≠ 0 ∧ x ≠ 1) :
    readMask bs = none := by
  rw [Option.eq_none_iff_forall_not_mem]
  intro m read
  obtain ⟨x, member, nonzero, nonone⟩ := other
  obtain ⟨i, within, rfl⟩ := List.mem_iff_getElem.1 member
  have flag : (bs.getD i 0).toNat ≤ 1 := readMask_some read i (length ▸ within)
  rw [List.getD_eq_getElem _ _ within] at flag
  bv_omega

theorem flagOf_flag (f : Bool) : flagOf (if f then 1 else 0 : Byte).toNat = some f := by cases f <;> rfl

/-- The twelve flag bytes of a mask are read as it. -/
theorem readMask_flags (m : NoticeMask) :
    readMask ([m.offer, m.offerTimeout, m.cueTimeout, m.songStarted, m.paused, m.resumed, m.keyChanged, m.result,
      m.queueChanged, m.handsetChanged, m.lyricSkipped, m.videoStale].map fun f => if f then 1 else 0) = some m := by
  simp only [readMask, u8, List.map_cons, List.map_nil, List.getD_cons_zero, List.getD_cons_succ, flagOf_flag]
  rfl

theorem State.noticeMask_of_unread (unread : readMask args = none) : s.noticeMask r args = (s, .badRecord) := by
  simp only [State.noticeMask, unread]

theorem State.noticeMask_of_read {m : NoticeMask} (read : readMask args = some m) :
    s.noticeMask r args =
      (s.setRoom r { s.room r with mask := { m with offer := true } }, if m.offer then .ok else .okClamped) := by
  simp only [State.noticeMask, read, State.modRoom_eq]

theorem exec_noticeMask (credit : s.takesCells = true) (room : b.toNat = r.val) (length : args.length = 12) :
    exec (.noticeMask b tag args) s =
      .next ((s.noticeMask r args).1.answer ⟨tag, b, (s.noticeMask r args).2, 20, []⟩).startUplink :=
  finish_command_room .noticeMask credit room (by simp [lengthAllowed, RoomCommand.argBytes, length])

/-! ## BAND_TABLE (R65, R66) -/

theorem readBand_some {bs : List Byte} {i : Nat} {x : Band} (read : readBand bs i = some x) :
    u8 bs (i + 2) ≤ 5 ∧ u8 bs (i + 4) ≤ 2 := by
  simp only [readBand, Option.bind_eq_bind, Option.bind_eq_some_iff] at read
  obtain ⟨kind, kinds, alignment, alignments, -⟩ := read
  exact ⟨bandKindOf_bound kinds, alignmentOf_bound alignments⟩

theorem readBand_of_coded {bs : List Byte} {i : Nat} (kind : u8 bs (i + 2) ≤ 5) (alignment : u8 bs (i + 4) ≤ 2) :
    readBand bs i = some
      { height := u16 bs i
        kind := bandKindNamed (u8 bs (i + 2))
        dim := u8 bs (i + 3)
        alignment := alignmentNamed (u8 bs (i + 4))
        margin := u16 bs (i + 5)
        mask := ⟨u8 bs (i + 7) % 2 = 1, u8 bs (i + 7) / 2 % 2 = 1, u8 bs (i + 7) / 4 % 2 = 1, u8 bs (i + 7) / 8 % 2 = 1⟩ } := by
  simp only [readBand, bandKindOf_of_le kind, alignmentOf_of_le alignment, stateMaskOf_eq]
  rfl

theorem Band.clamped_eq (x : Band) :
    x.clamped = { x with height := max 1 (min 720 x.height), dim := min 7 x.dim, margin := min 320 x.margin } := by
  simp (disch := decide) only [Band.clamped, clampNat_eq_max_min, Nat.zero_max]

/-- A table is refused for its number of entries, its length, or a kind or alignment that names no value. -/
theorem readBands_eq_none {bs : List Byte}
    (bad : bs.length ≠ 1 + 8 * u8 bs 0 ∨ u8 bs 0 = 0 ∨ 12 < u8 bs 0 ∨
      (∃ k < u8 bs 0, 5 < u8 bs (8 * k + 3) ∨ 2 < u8 bs (8 * k + 5))) : readBands bs = none := by
  unfold readBands
  dsimp only
  split
  next sized =>
    obtain ⟨length, low, high⟩ := sized
    rcases bad with other | none | many | ⟨k, less, unnamed⟩
    · exact absurd length other
    · omega
    · omega
    · refine mapM_of_exists ⟨k, List.mem_range.2 less, Option.eq_none_iff_forall_not_mem.2 fun x read => ?_⟩
      obtain ⟨kind, alignment⟩ := readBand_some read
      have kindAt : 1 + 8 * k + 2 = 8 * k + 3 := by omega
      have alignmentAt : 1 + 8 * k + 4 = 8 * k + 5 := by omega
      rw [kindAt] at kind
      rw [alignmentAt] at alignment
      omega
  next => rfl

theorem readBands_of_coded {bs : List Byte} (length : bs.length = 1 + 8 * u8 bs 0) (low : 1 ≤ u8 bs 0)
    (high : u8 bs 0 ≤ 12) (named : ∀ k < u8 bs 0, u8 bs (8 * k + 3) ≤ 5 ∧ u8 bs (8 * k + 5) ≤ 2) :
    readBands bs = some ((List.range (u8 bs 0)).map fun k =>
      { height := u16 bs (8 * k + 1)
        kind := bandKindNamed (u8 bs (8 * k + 3))
        dim := u8 bs (8 * k + 4)
        alignment := alignmentNamed (u8 bs (8 * k + 5))
        margin := u16 bs (8 * k + 6)
        mask := ⟨u8 bs (8 * k + 8) % 2 = 1, u8 bs (8 * k + 8) / 2 % 2 = 1, u8 bs (8 * k + 8) / 4 % 2 = 1,
          u8 bs (8 * k + 8) / 8 % 2 = 1⟩ }) := by
  refine (if_pos ⟨length, low, high⟩).trans (mapM_of_forall fun k member => ?_)
  obtain ⟨kind, alignment⟩ := named k (List.mem_range.1 member)
  rw [Nat.add_comm 1 (8 * k)]
  exact readBand_of_coded kind alignment

theorem State.bandTable_of_unread (unread : readBands args = none) : s.bandTable r args = (s, .badRecord) := by
  simp only [State.bandTable, unread]

theorem State.bandTable_of_read {bs : List Band} (read : readBands args = some bs) :
    s.bandTable r args =
      (s.setRoom r { s.room r with compositor := { (s.room r).compositor with slot := some (bs.map Band.clamped) } },
        if bs.map Band.clamped = bs then .ok else .okClamped) := by
  simp only [State.bandTable, read, State.modRoom_eq]

theorem exec_bandTable (credit : s.takesCells = true) (room : b.toNat = r.val) :
    exec (.bandTable b tag args) s =
      .next ((s.bandTable r args).1.answer ⟨tag, b, (s.bandTable r args).2, 32, []⟩).startUplink :=
  finish_command_room .bandTable credit room rfl

/-! ## PALETTE (R68) -/

theorem State.palette_of_length_ne (other : args.length ≠ 30) : s.palette r args = (s, .badRecord) := by
  simp only [State.palette, readPalette, if_neg other]

/-- The thirty bytes of ten colours are read as them. -/
theorem readPalette_colours (c : Nat → Colour) :
    readPalette ((List.range 10).flatMap fun k => [(c k).y, (c k).cb, (c k).cr]) =
      some ⟨⟨c 0, c 1, c 2⟩, ⟨c 3, c 4, c 5⟩, ⟨c 6, c 7, c 8⟩, c 9⟩ := rfl

theorem State.palette_of_read {p : Palette} (read : readPalette args = some p) :
    s.palette r args =
      (s.setRoom r { s.room r with compositor := { (s.room r).compositor with palette := p } }, .ok) := by
  simp only [State.palette, read, State.modRoom_eq]

theorem exec_palette (credit : s.takesCells = true) (room : b.toNat = r.val) :
    exec (.palette b tag args) s =
      .next ((s.palette r args).1.answer ⟨tag, b, (s.palette r args).2, 33, []⟩).startUplink :=
  finish_command_room .palette credit room rfl

/-! ## The glyph store (R40 to R43) -/

/-- Two bits of a byte, from its bit `2k` on. -/
theorem pixel_eq (x : Byte) (k : Nat) : (x >>> (2 * k) &&& 3).toNat = x.toNat / 4 ^ k % 4 := by
  rw [BitVec.toNat_and, BitVec.toNat_ushiftRight, Nat.shiftRight_eq_div_pow, Nat.pow_mul]
  exact Nat.and_two_pow_sub_one_eq_mod _ 2

/-- A payload's pixels stand four to a byte, the first in its two most significant bits (11.2). -/
theorem pixel_flatMap (bs : List Byte) (i : Nat) :
    ((bs.flatMap unpackPixels).getD i 0).toNat = (bs.getD (i / 4) 0).toNat / 4 ^ (3 - i % 4) % 4 := by
  induction bs generalizing i with
  | nil => simp
  | cons x bs ih =>
    rw [List.flatMap_cons]
    obtain less | more := lt_or_ge i 4
    · interval_cases i
      · exact pixel_eq x 3
      · exact pixel_eq x 2
      · exact pixel_eq x 1
      · exact pixel_eq x 0
    · obtain ⟨j, rfl⟩ := Nat.exists_eq_add_of_le more
      rw [List.getD_append_right _ _ _ _ (by simp [unpackPixels])]
      have place : (4 + j) / 4 = j / 4 + 1 := by omega
      have within : (4 + j) % 4 = j % 4 := by omega
      rw [place, within, List.getD_cons_succ]
      simpa [unpackPixels] using ih j

theorem readGlyph_of_fits (code : u16 args 0 ≤ 1023) (low : 4 ≤ u8 args 2) (high : u8 args 2 ≤ 48)
    (length : args.length = 3 + 10 * u8 args 2) :
    readGlyph args = some ⟨u16 args 0, u8 args 2, (args.drop 3).flatMap unpackPixels⟩ :=
  if_pos ⟨by omega, code, low, high, length⟩

theorem readGlyph_eq_none
    (bad : 1023 < u16 args 0 ∨ u8 args 2 < 4 ∨ 48 < u8 args 2 ∨ args.length ≠ 3 + 10 * u8 args 2) :
    readGlyph args = none := by
  refine if_neg ?_
  rintro ⟨-, code, low, high, length⟩
  omega

/-- What a table filtered by its codes holds for a code. -/
theorem lookup_filter_code {α : Type} (t : List (Nat × α)) (keeps : Nat → Bool) (code : Nat) :
    (t.filter fun x => keeps x.1).lookup code = if keeps code then t.lookup code else none := by
  induction t with
  | nil => simp
  | cons x t ih =>
    obtain ⟨key, value⟩ := x
    by_cases same : code = key
    · subst same
      cases kept : keeps code <;> simp [kept, ih]
    · have other : (code == key) = false := beq_false_of_ne same
      cases kept : keeps key <;> simp [kept, ih, List.lookup_cons, other]

/-- Of the table with one code's entry replaced, that code has the new entry and every other its old one. -/
theorem lookup_setEntry (code : Nat) (e : GlyphEntry) (t : List (Nat × GlyphEntry)) (x : Nat) :
    (setEntry code e t).lookup x = if x = code then some e else t.lookup x := by
  rw [setEntry, List.lookup_append, lookup_filter_code t (fun y => y < code), List.lookup_cons,
    lookup_filter_code t (fun y => code < y)]
  rcases lt_trichotomy x code with below | rfl | above
  · have other : (x == code) = false := beq_false_of_ne below.ne
    simp [below, below.ne, other, not_lt.2 below.le]
  · simp
  · have other : (x == code) = false := beq_false_of_ne above.ne'
    simp [above, above.ne', other, not_lt.2 above.le]

theorem State.glyphLoad_of_unread (unread : readGlyph args = none) : s.glyphLoad args = (s, .badRecord) := by
  simp only [State.glyphLoad, unread]

theorem State.glyphLoad_of_full {x : GlyphRecord} (read : readGlyph args = some x)
    (full : 1310720 < s.glyphs.fill + 40 * x.width) : s.glyphLoad args = (s, .noSpace) := by
  simp only [State.glyphLoad, read]
  exact if_pos full

theorem State.glyphLoad_of_space {x : GlyphRecord} (read : readGlyph args = some x)
    (space : s.glyphs.fill + 40 * x.width ≤ 1310720) :
    s.glyphLoad args = ({ s with glyphs := s.glyphs.load x }, .ok) := by
  simp only [State.glyphLoad, read]
  exact if_neg (not_lt.2 space)

theorem exec_glyphLoad (credit : s.takesCells = true) :
    exec (.glyphLoad 15 tag args) s =
      .next ((s.glyphLoad args).1.answer ⟨tag, 15, (s.glyphLoad args).2, 34, []⟩).startUplink :=
  congrArg finish (State.command_device .glyphLoad credit rfl)

theorem exec_glyphClear (credit : s.takesCells = true) :
    exec (.glyphClear 15 tag []) s =
      .next (s.glyphClear.1.answer ⟨tag, 15, s.glyphClear.2, 35, []⟩).startUplink :=
  congrArg finish (State.command_device .glyphClear credit rfl)

/-- A line stands on a row in some of the four rooms. -/
theorem State.anyLineShown_iff :
    s.anyLineShown = true ↔ ∃ r : RoomId, ∃ l ∈ (s.room r).lyrics.lines, l.state ≠ .loaded := by
  simp [State.anyLineShown, Room.showsLine, Line.onRow, Fin.exists_fin_succ, or_assoc]

end

/-! ## The obligations -/

/-- Settles O13, by whether the coded fields of the record name values, and by what is written of it. -/
theorem roomSettingsWriteTheWholeRecord : Obligations.RoomSettingsWriteTheWholeRecord := by
  rintro s b tag r args byte two credit room length rfl rfl
  rw [exec_roomSettings credit room length]
  refine ⟨fun unnamed => ?_, ?_⟩
  · have unread : readSettings args = none := by
      refine Option.eq_none_iff_forall_not_mem.2 fun t read => ?_
      obtain ⟨display, allowance, one, two, repeats⟩ := readSettings_some read
      rcases unnamed with h | h | h | h | h
      · exact absurd display (not_le.2 h)
      · exact absurd allowance (not_le.2 h)
      · exact absurd one (not_le.2 h)
      · exact absurd two (not_le.2 h)
      · exact absurd repeats (not_le.2 h)
    rw [State.roomSettings_of_unread unread]
  · rintro t w part display allowance one two repeats rfl given rfl
    have read : readSettings args = some t := given ▸ readSettings_of_coded display allowance one two repeats
    rw [State.roomSettings_of_read read, Room.allowed_eq]

/-- Settles O14, by whether the twelve bytes are flags. -/
theorem noticeMaskKeepsOfferEnabled : Obligations.NoticeMaskKeepsOfferEnabled := by
  intro s b tag r credit room
  refine ⟨fun args length other => ?_, fun m => ?_⟩
  · rw [exec_noticeMask credit room length, State.noticeMask_of_unread (readMask_of_other length other)]
  · rw [exec_noticeMask credit room (by rfl), State.noticeMask_of_read (readMask_flags m)]

/-- Settles O15, by whether the payload is that of a table and by whether it is that of a palette. -/
theorem bandTableAndPaletteWritten : Obligations.BandTableAndPaletteWritten := by
  rintro s b tag r args byte two credit room rfl rfl
  refine ⟨fun bad => ?_, ?_, fun other => ?_, ?_⟩
  · rw [exec_bandTable credit room, State.bandTable_of_unread (readBands_eq_none bad)]
  · rintro bs cs length low high named given clamped
    have read : readBands args = some bs :=
      (readBands_of_coded length low high named).trans (congrArg some given.symm)
    have held : bs.map Band.clamped = cs := by
      rw [clamped]; exact List.map_congr_left fun x _ => Band.clamped_eq x
    rw [exec_bandTable credit room, State.bandTable_of_read read, held]
  · rw [exec_palette credit room, State.palette_of_length_ne other]
  · rintro c rfl
    rw [exec_palette credit room, State.palette_of_read (readPalette_colours c)]

/-- Settles O16, by the two checks of R41 and what a load leaves, and by whether a line shows. -/
theorem glyphStoreFillsAndClears : Obligations.GlyphStoreFillsAndClears := by
  refine ⟨?load, fun s tag credit => ?clear⟩
  case load =>
    rintro s tag args byte code width credit rfl rfl rfl
    rw [exec_glyphLoad credit]
    refine ⟨fun bad => ?_, fun code low high length => ⟨fun full => ?_, fun space => ?_⟩⟩
    · rw [State.glyphLoad_of_unread (readGlyph_eq_none bad)]
    · rw [State.glyphLoad_of_full (readGlyph_of_fits code low high length) full]
    · have read := readGlyph_of_fits code low high length
      obtain ⟨-, -, -, sized⟩ := readGlyph_some read
      have sized : ((args.drop 3).flatMap unpackPixels).length = 40 * u8 args 2 := sized
      rw [State.glyphLoad_of_space read space]
      refine ⟨_, rfl, rfl, ?_, fun other differs => ?_, fun i within => ?_, fun a outside => ?_⟩
      · exact (lookup_setEntry ..).trans (if_pos rfl)
      · exact (lookup_setEntry ..).trans (if_neg differs)
      · have stored : memRead clearCell (s.glyphs.load ⟨u16 args 0, u8 args 2, (args.drop 3).flatMap unpackPixels⟩).cells
            (s.glyphs.fill + i) = ((args.drop 3).flatMap unpackPixels).getD i 0 := by
          rw [List.getD_eq_getElem _ _ (sized ▸ within)]
          exact memRead_memWrite_inside _ _ _ _ _ (sized ▸ within)
        have shifted : (args.drop 3).getD (i / 4) 0 = args.getD (3 + i / 4) 0 := by
          simp [List.getD_eq_getElem?_getD]
        rw [stored, pixel_flatMap, shifted]
      · exact memRead_memWrite_outside _ _ _ _ _ (sized ▸ outside)
  case clear =>
    rw [exec_glyphClear credit]
    refine ⟨fun shown => ?_, fun unshown => ?_⟩
    · rw [State.glyphClear, if_pos (State.anyLineShown_iff.2 shown)]
    · have none : ¬s.anyLineShown = true := by
        rw [State.anyLineShown_iff]
        rintro ⟨r, l, member, shown⟩
        exact shown (unshown r l member)
      rw [State.glyphClear, if_neg none]
      rfl

end Sys2Proof.Machine
end

section
/-! SUPPORT. How the timeline's events end in a room (R3, R8, R10, R12, R14, R15, R28 to R30, R36 to R38, R116, R157):
detents, time marks with their credits and jumps, the pass of the notes, and the expiry of each timer. -/

namespace Sys2Proof.Machine

/-! ## Taking what was handed on -/

theorem State.takeHanded_of_split {α : Type} {f : HandOver → Option α} {s : State} {before rest : List HandOver}
    {h : HandOver} {x : α} (first : ∀ y ∈ before, f y = none) (accepted : f h = some x)
    (split : s.handed = before ++ h :: rest) (act : α → State → State) :
    s.takeHanded f act = act x { s with handed := before ++ rest } := by
  simp only [State.takeHanded, split, takeFirst_append first accepted]

theorem State.takeHanded_of_absent {α : Type} {f : HandOver → Option α} {s : State} (absent : ∀ y ∈ s.handed, f y = none)
    (act : α → State → State) : s.takeHanded f act = s := by
  simp only [State.takeHanded, takeFirst_none.2 absent]

section

variable {r : RoomId} {hs : List HandOver}

theorem HandOver.detentOf_self (r : RoomId) (c : Bool) : HandOver.detentOf r (.detent r c) = some c := if_pos rfl
theorem HandOver.markOf_self (r : RoomId) (p : Nat) : HandOver.markOf r (.mark r p) = some p := if_pos rfl
theorem HandOver.scoreOf_self (r : RoomId) (t : Nat) : HandOver.scoreOf r (.toScore r t) = some t := if_pos rfl

theorem HandOver.detentOf_eq_none (absent : ∀ c, HandOver.detent r c ∉ hs) : ∀ y ∈ hs, HandOver.detentOf r y = none := by
  intro y member
  cases y with
  | detent q c => exact if_neg fun same : q = r => absent c (same ▸ member)
  | _ => rfl

theorem HandOver.markOf_eq_none (absent : ∀ p, HandOver.mark r p ∉ hs) : ∀ y ∈ hs, HandOver.markOf r y = none := by
  intro y member
  cases y with
  | mark q p => exact if_neg fun same : q = r => absent p (same ▸ member)
  | _ => rfl

theorem HandOver.scoreOf_eq_none (absent : ∀ t, HandOver.toScore r t ∉ hs) : ∀ y ∈ hs, HandOver.scoreOf r y = none := by
  intro y member
  cases y with
  | toScore q t => exact if_neg fun same : q = r => absent t (same ▸ member)
  | _ => rfl

end

section

variable {s : State} {r : RoomId}

/-! ## Detents (R36 to R38) -/

theorem Room.keyMoves_iff {rm : Room} {d : Int} :
    rm.keyMoves d = true ↔ rm.phase.songOpen = true ∧ -6 ≤ rm.timeline.keyOffset + d ∧ rm.timeline.keyOffset + d ≤ 6 := by
  simp only [Room.keyMoves, Bool.and_eq_true, decide_eq_true_eq, and_assoc]

theorem State.takeDetent_of_moving {clockwise : Bool} {d : Int} (step : d = if clockwise then 1 else -1)
    (moves : (s.room r).keyMoves d = true) :
    s.takeDetent r clockwise =
      { s.setRoom r { s.room r with timeline := { (s.room r).timeline with
          keyOffset := (s.room r).timeline.keyOffset + d, keyStamp := (s.room r).timeline.clock } } with
        link := s.link.hear (s.room r).mask r .keyChanged } := by
  subst step
  simp only [State.takeDetent, moves, if_true, State.modRoom_eq, State.raise_eq_hear, State.room_setRoom_self,
    State.setRoom_link]

theorem State.takeDetent_of_absorbed {clockwise : Bool} {d : Int} (step : d = if clockwise then 1 else -1)
    (absorbed : ¬(s.room r).keyMoves d = true) : s.takeDetent r clockwise = s := by
  subst step
  exact if_neg absorbed

/-! ## Time marks (R29, R30) -/

/-- A song position is held at the end guard, the song length plus 3,000. -/
theorem Timeline.cap_eq (t : Timeline) (p : Nat) :
    t.cap p = match t.songLength with | some len => min p (len + 3000) | none => p := by
  cases length : t.songLength <;> simp only [Timeline.cap, Timeline.guard, length] <;> rfl

section

variable {t : Timeline} {p q : Nat}

/-- What a mark at a held position does, by its lead over the clock: a jump, or the credits set anew. -/
theorem Timeline.mark_of_cap (held : t.cap p = q) :
    t.mark p =
      if t.clock + 40 < q then { t with clock := q, catchUp := 0, hold := 0 }
      else if t.clock + 3 ≤ q then { t with catchUp := q - t.clock, hold := 0 }
      else if t.clock ≤ q + 2 then { t with catchUp := 0, hold := 0 }
      else { t with catchUp := 0, hold := t.clock - q } := by
  have ahead : ((q : Int) - (t.clock : Int)).toNat = q - t.clock := by omega
  have behind : (-((q : Int) - (t.clock : Int))).toNat = t.clock - q := by omega
  simp only [Timeline.mark, Timeline.lead, held, ahead, behind]
  refine ite_congr (propext (by omega)) (fun _ => rfl) fun _ => ?_
  refine ite_congr (propext (by omega)) (fun _ => rfl) fun _ => ?_
  exact if_congr (by omega) rfl rfl

theorem Timeline.jumps_of_cap (held : t.cap p = q) : t.jumps p = decide (t.clock + 40 < q) := by
  simp only [Timeline.jumps, Timeline.lead, held]
  exact decide_eq_decide.2 (by omega)

end

/-- A clock change is handed to its three readers (R28). -/
theorem State.handClockChange_eq (s : State) (r : RoomId) (jump : Bool) :
    s.handClockChange r jump =
      { s with handed := s.handed ++ [HandOver.toGuard r (s.room r).timeline.clock,
          .toScore r (s.room r).timeline.clock, .toLyrics r jump] } := by
  simp only [State.handClockChange, State.handClock, State.hand, List.append_assoc, List.cons_append, List.nil_append]

theorem exec_timeMark_first {p : Nat} {before rest : List HandOver} (first : ∀ x, HandOver.mark r x ∉ before) :
    exec (.timeMark r) { s with handed := before ++ .mark r p :: rest } =
      .next (({ s with handed := before ++ rest }).timeMark r p).startUplink :=
  congrArg finish (State.takeHanded_of_first (HandOver.markOf_eq_none first) (HandOver.markOf_self r p) _)

/-- A mark in PLAYING starts the mark timer again, and a jump of its is handed on. -/
theorem State.markPlaying_eq {p q : Nat} (held : (s.room r).timeline.cap p = q) :
    s.markPlaying r p =
      { s.setRoom r
          { s.room r with
            timeline := (s.room r).timeline.mark p, markTimer := .running (s.room r).settings.markTimeout } with
        handed := if (s.room r).timeline.clock + 40 < q then
            s.handed ++ [HandOver.toGuard r q, .toScore r q, .toLyrics r true]
          else s.handed } := by
  simp only [State.markPlaying, Timeline.jumps_of_cap held, decide_eq_true_eq]
  split
  next jumps =>
    have reached : ((s.room r).timeline.mark p).clock = q := by rw [Timeline.mark_of_cap held, if_pos jumps]
    simp only [State.handClockChange_eq, State.room_modRoom_self, reached]
    rfl
  next => rfl

theorem State.timeMark_of_playing {p : Nat} (playing : (s.room r).phase = .playing) :
    s.timeMark r p = s.markPlaying r p := by
  simp only [State.timeMark, playing]

theorem State.timeMark_elsewhere {p : Nat} (unplayed : (s.room r).phase ≠ .playing) (unpaused : (s.room r).phase ≠ .paused) :
    s.timeMark r p = s := by
  unfold State.timeMark
  split
  next playing => exact absurd playing unplayed
  next paused => exact absurd paused unpaused
  all_goals rfl

/-! ## STALL removed (R8, R10) -/

theorem State.removeStall_elsewhere (other : (s.room r).phase ≠ .paused) : s.removeStall r = s :=
  if_neg fun ⟨paused, _⟩ => other paused

/-- By STAFF the room stays PAUSED. -/
theorem State.removeStall_of_staff (paused : (s.room r).phase = .paused) (staff : (s.room r).reasons.staff = true) :
    s.removeStall r = s.setRoom r { s.room r with reasons := ⟨false, true⟩ } := by
  have left : ({ (s.room r).reasons with stall := false } : PauseReasons) = ⟨false, true⟩ :=
    congrArg (PauseReasons.mk false) staff
  cases stall : (s.room r).reasons.stall with
  | true =>
    rw [State.removeStall, if_pos ⟨paused, stall⟩, left, State.removeReason, if_neg (by decide)]
    rfl
  | false =>
    have same : (s.room r).reasons = ⟨false, true⟩ := by rw [← left, ← stall]
    rw [← same, State.setRoom_room]
    exact if_neg fun ⟨_, is⟩ => Bool.false_ne_true (stall.symm.trans is)

/-- With STALL its only reason the room returns to PLAYING. -/
theorem State.removeStall_of_stall (paused : (s.room r).phase = .paused) (reasons : (s.room r).reasons = ⟨true, false⟩) :
    s.removeStall r = s.release r := by
  simp only [State.removeStall, paused, reasons, and_self, if_true, State.removeReason, PauseReasons.empty]

/-! ## Marks in a pause (R28 to R30) -/

/-- In a pause the pass of the notes counts no verdict. -/
theorem Room.passNotes_of_paused {rm : Room} {t : Nat} (paused : rm.phase = .paused) :
    rm.passNotes t = { rm with melody := { rm.melody with notes := rm.melody.notes.filter fun z => t < z.stop } } := by
  simp only [Room.passNotes, paused]

/-- A song end leaves the room in RESULT. -/
theorem State.phase_endSong (s : State) (r : RoomId) : ((s.endSong r).room r).phase = .result := by
  cases head : (s.room r).queue.head? with
  | some e => rw [State.endSong_eq head]; exact congrArg Room.phase (State.room_setRoom_self ..)
  | none =>
    have kept : (((s.modRoom r fun rm => (rm.makeResult .complete).toResult).clearRings r).room r).queue.head? = none := by
      simp [Room.makeResult_of_no_head head, Room.toResult, Room.hushed, head]
    simp only [State.endSong, State.retireHead_of_no_head kept, State.raise_room]
    simp [Room.toResult, Room.hushed]

theorem State.timeMark_of_paused {p : Nat} (paused : (s.room r).phase = .paused) :
    s.timeMark r p = s.markPaused r p := by
  simp only [State.timeMark, paused]

section

variable {p q : Nat} (paused : (s.room r).phase = .paused) (held : (s.room r).timeline.cap p = q)

include paused held

/-- A mark that makes no jump sets the credits, and STALL is removed. -/
theorem State.timeMark_of_near (near : q ≤ (s.room r).timeline.clock + 40) :
    s.timeMark r p = (s.setRoom r { s.room r with timeline := (s.room r).timeline.mark p }).removeStall r := by
  have unjumped : ¬(s.room r).timeline.clock + 40 < q := not_lt.2 near
  simp only [State.timeMark_of_paused paused, State.markPaused, Timeline.jumps_of_cap held, decide_eq_true_eq,
    if_neg unjumped, State.modRoom_eq]

theorem State.timeMark_of_near_stall (near : q ≤ (s.room r).timeline.clock + 40)
    (reasons : (s.room r).reasons = ⟨true, false⟩) :
    s.timeMark r p =
      { s.setRoom r
          { s.room r with
            timeline := (s.room r).timeline.mark p, phase := .playing, reasons := ⟨false, false⟩
            markTimer := .running (s.room r).settings.markTimeout } with
        link := s.link.hear (s.room r).mask r .resumed } := by
  rw [State.timeMark_of_near paused held near, State.removeStall_of_stall, State.release_eq, State.room_setRoom_self,
    State.setRoom_setRoom, State.setRoom_link]
  · rw [State.room_setRoom_self]; exact paused
  · rw [State.room_setRoom_self]; exact reasons

theorem State.timeMark_of_near_staff (near : q ≤ (s.room r).timeline.clock + 40)
    (staff : (s.room r).reasons.staff = true) :
    s.timeMark r p =
      s.setRoom r { s.room r with timeline := (s.room r).timeline.mark p, reasons := ⟨false, true⟩ } := by
  rw [State.timeMark_of_near paused held near, State.removeStall_of_staff, State.room_setRoom_self, State.setRoom_setRoom]
  · rw [State.room_setRoom_self]; exact paused
  · rw [State.room_setRoom_self]; exact staff

end

/-- The part once the lines have been evaluated and the notes passed at the clock of a jump in a pause (R28). -/
def State.jumpRead (r : RoomId) (n : Timeline) (s : State) : State :=
  ((s.setRoom r { s.room r with timeline := n }).evaluate r).setRoom r
    { ((s.setRoom r { s.room r with timeline := n }).evaluate r).room r with
      melody := { (((s.setRoom r { s.room r with timeline := n }).evaluate r).room r).melody with
        notes := (((s.setRoom r { s.room r with timeline := n }).evaluate r).room r).melody.notes.filter fun z =>
          n.clock < z.stop } }

/-- What the two readers leave of the room but its lines and its notes. -/
theorem State.room_jumpRead (s : State) (r : RoomId) (n : Timeline) :
    ∃ lyrics melody, (s.jumpRead r n).room r = { s.room r with timeline := n, lyrics := lyrics, melody := melody } := by
  rw [State.jumpRead, State.room_setRoom_self, State.room_evaluate_self, State.room_setRoom_self]
  exact ⟨_, _, rfl⟩

/-- A jump in a pause: its lines and notes are read, the end guard is tested, and STALL is removed (R28). -/
theorem State.timeMark_of_jump {p q : Nat} (paused : (s.room r).phase = .paused) (held : (s.room r).timeline.cap p = q)
    (far : (s.room r).timeline.clock + 40 < q) :
    s.timeMark r p =
      (((s.jumpRead r { (s.room r).timeline with clock := q, catchUp := 0, hold := 0 }).testGuard r q).removeStall r) := by
  have marked : (s.room r).timeline.mark p = { (s.room r).timeline with clock := q, catchUp := 0, hold := 0 } := by
    rw [Timeline.mark_of_cap held, if_pos far]
  have still : (((s.setRoom r { s.room r with
      timeline := { (s.room r).timeline with clock := q, catchUp := 0, hold := 0 } }).evaluate r).room r).phase = .paused := by
    rw [State.room_evaluate_self, State.room_setRoom_self]; exact paused
  simp only [State.timeMark_of_paused paused, State.markPaused, Timeline.jumps_of_cap held, decide_eq_true_eq, if_pos far,
    State.modRoom_eq, marked, State.readJump, Room.passNotes_of_paused still, State.room_setRoom_self, State.jumpRead]

/-! ## The pass of the notes (R116, R125) -/

/-- One verdict MISSED is counted until judged stands at its limit. -/
theorem Singer.judge_missed (x : Singer) :
    x.judge .missed =
      { x with
        judged := x.judged + min (65535 - x.judged) 1
        missed := x.missed + min (65535 - x.judged) 1 } := by
  unfold Singer.judge
  split
  next below =>
    have one : min (65535 - x.judged) 1 = 1 := min_eq_right (Nat.sub_pos_of_lt below)
    rw [one]
  next full =>
    have none : 65535 - x.judged = 0 := Nat.sub_eq_zero_of_le (not_lt.1 full)
    rw [none, Nat.zero_min]
    rfl

/-- A singer with a number of verdicts MISSED, as many as judged has room for. -/
def Singer.missing (x : Singer) (n : Nat) : Singer :=
  { x with judged := x.judged + min (65535 - x.judged) n, missed := x.missed + min (65535 - x.judged) n }

theorem Singer.missing_zero (x : Singer) : x.missing 0 = x := by simp [Singer.missing]

theorem Singer.missing_missing (x : Singer) (m n : Nat) : (x.missing m).missing n = x.missing (m + n) := by
  have counted : min (65535 - x.judged) m + min (65535 - (x.judged + min (65535 - x.judged) m)) n =
      min (65535 - x.judged) (m + n) := by omega
  simp only [Singer.missing, Nat.add_assoc, ← counted]

/-- The onsets of a channel that the closing of notes misses: those PENDING in seen notes. -/
def missedOnsets (m : Mic) (ns : List Note) : Nat :=
  (ns.filter fun n => n.onset.get m = .pending && n.seen.get m).length

theorem missedOnsets_cons (m : Mic) (n : Note) (ns : List Note) :
    missedOnsets m (n :: ns) = missedOnsets m [n] + missedOnsets m ns := by
  simp only [missedOnsets, ← List.length_append, ← List.filter_append, List.singleton_append]

theorem Note.closeFor_eq (m : Mic) (n : Note) (x : Singer) : n.closeFor m x = x.missing (missedOnsets m [n]) := by
  unfold Note.closeFor missedOnsets
  split
  next missed => simp [missed, Singer.judge_missed, Singer.missing]
  next kept =>
    have none : (decide (n.onset.get m = .pending) && n.seen.get m) = false := by simpa using kept
    simp [none, Singer.missing_zero]

/-- The closing of notes misses their onsets, for each channel. -/
theorem closeNotes_eq (ns : List Note) (p : PerMic Singer) :
    closeNotes ns p = ⟨p.one.missing (missedOnsets .mic1 ns), p.two.missing (missedOnsets .mic2 ns)⟩ := by
  induction ns generalizing p with
  | nil => simp [closeNotes, missedOnsets, Singer.missing_zero]
  | cons n ns ih =>
    have rest : closeNotes (n :: ns) p = closeNotes ns ⟨n.closeFor .mic1 p.one, n.closeFor .mic2 p.two⟩ := rfl
    rw [rest, ih, missedOnsets_cons .mic1, missedOnsets_cons .mic2]
    simp only [Note.closeFor_eq, Singer.missing_missing]

theorem Room.passNotes_of_playing {rm : Room} {t : Nat} (playing : rm.phase = .playing) :
    rm.passNotes t =
      { rm with
        melody := { rm.melody with notes := rm.melody.notes.filter fun n => t < n.stop }
        singers := closeNotes (rm.melody.notes.filter fun n => n.stop ≤ t) rm.singers } := by
  simp only [Room.passNotes, playing]

theorem Room.passNotes_elsewhere {rm : Room} {t : Nat} (unplayed : rm.phase ≠ .playing) (unpaused : rm.phase ≠ .paused) :
    rm.passNotes t = rm := by
  unfold Room.passNotes
  dsimp only
  split
  next playing => exact absurd playing unplayed
  next paused => exact absurd paused unpaused
  all_goals rfl

theorem exec_pass_first {t : Nat} {before rest : List HandOver} (first : ∀ x, HandOver.toScore r x ∉ before) :
    exec (.pass r) { s with handed := before ++ .toScore r t :: rest } =
      .next ({ s.setRoom r ((s.room r).passNotes t) with handed := before ++ rest }).startUplink :=
  congrArg finish (State.takeHanded_of_first (HandOver.scoreOf_eq_none first) (HandOver.scoreOf_self r t) _)

/-! ## Timers that run out (R3) -/

theorem State.markExpiry_of_playing (out : (s.room r).markTimer = .running 0) (playing : (s.room r).phase = .playing) :
    s.markExpiry r =
      { s.setRoom r
          { (s.room r).hushed with phase := .paused, reasons := ⟨true, false⟩, markTimer := .stopped } with
        engine := s.engine.voided r
        link := s.link.hear (s.room r).mask r .paused } := by
  simp only [State.markExpiry, out, State.room_modRoom_self, playing, if_true, State.hold_eq]
  rw [State.modRoom_eq, State.setRoom_setRoom]
  rfl

theorem State.markExpiry_of_time (time : (s.room r).markTimer ≠ .running 0) : s.markExpiry r = s := by
  unfold State.markExpiry
  split
  next => rfl
  next => rfl
  next out => exact absurd out time

theorem State.cueExpiry_of_time (time : (s.room r).cueTimer ≠ .running 0) : s.cueExpiry r = s := by
  unfold State.cueExpiry
  split
  next => rfl
  next => rfl
  next out => exact absurd out time

theorem State.holdExpiry_of_result (out : (s.room r).holdTimer = .running 0) (result : (s.room r).phase = .result) :
    s.holdExpiry r =
      (s.setRoom r
        { (s.room r).clearSong with
          phase := .attract, holdTimer := .stopped, staleTimer := (s.room r).staleTimer.resume }).offerTrigger r := by
  simp only [State.holdExpiry, out, State.room_modRoom_self, result, if_true, State.modRoom_modRoom]
  rfl

theorem State.holdExpiry_of_time (time : (s.room r).holdTimer ≠ .running 0) : s.holdExpiry r = s := by
  unfold State.holdExpiry
  split
  next => rfl
  next => rfl
  next out => exact absurd out time

theorem State.staleExpiry_of_out (out : (s.room r).staleTimer = .running 0) :
    s.staleExpiry r =
      { s.setRoom r { s.room r with staleTimer := .stopped } with
        link := s.link.hear (s.room r).mask r .videoStale } := by
  simp only [State.staleExpiry, out, State.raise_eq_hear, State.room_modRoom_self]
  rfl

theorem State.staleExpiry_of_time (time : (s.room r).staleTimer ≠ .running 0) : s.staleExpiry r = s := by
  unfold State.staleExpiry
  split
  next out => exact absurd out time
  all_goals rfl

theorem State.offerExpiry_of_offered {e : Entry} {es : List Entry} (out : (s.room r).queue.offerTimer = .running 0)
    (entries : (s.room r).queue.entries = e :: es) (offered : e.state = .offered) :
    s.offerExpiry r =
      { s.setRoom r
          { s.room r with queue := { (s.room r).queue with
              entries := { e with state := .queued } :: es, offerTimer := .stopped, suspended := true
              lapsed := some e.ticket } } with
        link := s.link.hear (s.room r).mask r .offerTimeout } := by
  simp only [State.offerExpiry, out, RequestQueue.head?_of_entries entries, offered, if_true, State.raise_eq_hear,
    State.modRoom_eq, RequestQueue.lapse, RequestQueue.setHead_of_entries entries,
    State.room_setRoom_self, State.setRoom_link]

theorem State.offerExpiry_of_time (time : (s.room r).queue.offerTimer ≠ .running 0) : s.offerExpiry r = s := by
  unfold State.offerExpiry
  split
  next => rfl
  next => rfl
  next out => exact absurd out time

end

/-! ## The obligations -/

/-- Settles O33, by whether a detent waits and by whether the key moves with it. -/
theorem keyDetentMovesTheKey : Obligations.KeyDetentMovesTheKey := by
  intro s r
  refine ⟨fun absent => ?_, fun before rest clockwise d first split step => ?_⟩
  · exact congrArg finish (State.takeHanded_of_absent (HandOver.detentOf_eq_none absent) _)
  have taken : exec (.keyDetent r) s = .next (({ s with handed := before ++ rest }).takeDetent r clockwise).startUplink :=
    congrArg finish (State.takeHanded_of_split (HandOver.detentOf_eq_none first) (HandOver.detentOf_self r clockwise) split _)
  rw [taken]
  refine ⟨fun opened low high => ?_, fun absorbed => ?_⟩
  · rw [State.takeDetent_of_moving (s := { s with handed := before ++ rest }) step
      (Room.keyMoves_iff.2 ⟨opened, low, high⟩)]
    rfl
  · rw [State.takeDetent_of_absorbed (s := { s with handed := before ++ rest }) step]
    rintro moves
    obtain ⟨opened, low, high⟩ := Room.keyMoves_iff.1 moves
    rcases absorbed with closed | below | above
    · exact Bool.false_ne_true (closed.symm.trans opened)
    · exact absurd low (not_le.2 below)
    · exact absurd high (not_le.2 above)

/-- Settles O34, by the lead of the mark's held position over the clock. -/
theorem timeMarkCorrectsThePlayingClock : Obligations.TimeMarkCorrectsThePlayingClock := by
  intro s r p before rest first
  rw [exec_timeMark_first (s := s) first]
  refine ⟨fun unplayed unpaused => ?_, ?_⟩
  · rw [State.timeMark_elsewhere (s := { s with handed := before ++ rest }) unplayed unpaused]
  · rintro t n q playing rfl held rfl
    have cap : (s.room r).timeline.cap p = q := (Timeline.cap_eq ..).trans held.symm
    rw [State.timeMark_of_playing (s := { s with handed := before ++ rest }) playing,
      State.markPlaying_eq (s := { s with handed := before ++ rest }) cap, ← Timeline.mark_of_cap cap]
    rfl

/-- Settles O35, by whether the mark makes a jump, and then by the end guard and the reasons of the pause. -/
theorem timeMarkInAPause : Obligations.TimeMarkInAPause := by
  rintro s r p before rest t n q first paused rfl held
  have cap : (s.room r).timeline.cap p = q := (Timeline.cap_eq ..).trans held.symm
  rw [exec_timeMark_first (s := s) first]
  refine ⟨fun near marked => ?_, ?_⟩
  · have mark : (s.room r).timeline.mark p = n := by rw [Timeline.mark_of_cap cap, if_neg (not_lt.2 near), marked]
    subst mark
    refine ⟨fun reasons => ?_, fun staff => ?_⟩
    · rw [State.timeMark_of_near_stall (s := { s with handed := before ++ rest }) paused cap near reasons]
      rfl
    · rw [State.timeMark_of_near_staff (s := { s with handed := before ++ rest }) paused cap near staff]
      rfl
  · rintro far rfl w v rfl read
    have read : v = ({ s with handed := before ++ rest } : State).jumpRead r
      { (s.room r).timeline with clock := q, catchUp := 0, hold := 0 } := read
    have marked : ({ s with handed := before ++ rest } : State).timeMark r p = (v.testGuard r q).removeStall r := by
      rw [read]; exact State.timeMark_of_jump paused cap far
    obtain ⟨lyrics, melody, room⟩ := State.room_jumpRead { s with handed := before ++ rest } r
      { (s.room r).timeline with clock := q, catchUp := 0, hold := 0 }
    rw [← read] at room
    rw [marked]
    have still : (v.room r).phase = .paused := by rw [room]; exact paused
    refine ⟨?guard, fun short staff => ?staff, fun short reasons => ?stall⟩
    case guard =>
      rintro ⟨len, length, reached⟩
      have songLength : (v.room r).timeline.songLength = some len := by rw [room]; exact length
      have ended := State.testGuard_of_reached (.inr still) songLength reached.ge
      have taken : exec (.endGuard r) { v with handed := .toGuard r q :: v.handed } = .next (v.testGuard r q).startUplink :=
        exec_endGuard_first (s := v) (before := []) fun _ => List.not_mem_nil
      rw [taken, ended, State.removeStall_elsewhere]
      rw [State.phase_endSong]
      decide
    all_goals
      have unended : v.testGuard r q = v := by
        refine State.testGuard_of_short (.inr ?_)
        rw [room]
        exact Option.all_eq_true_iff_get _ _ |>.2 fun _ => decide_eq_true (short _ (Option.eq_some_of_isSome _))
      rw [unended]
    case staff =>
      rw [State.removeStall_of_staff still (by rw [room]; exact staff)]
    case stall =>
      rw [State.removeStall_of_stall still (by rw [room]; exact reasons), State.release_eq]
      have same : (v.room r).settings = (s.room r).settings ∧ (v.room r).mask = (s.room r).mask := by rw [room]; exact ⟨rfl, rfl⟩
      rw [same.1, same.2]

/-- Settles O37, by the room state in which the pass finds the notes. -/
theorem passClosesNotes : Obligations.PassClosesNotes := by
  rintro s r t before rest kept first rfl
  rw [exec_pass_first (s := s) first]
  refine ⟨fun playing missed counted => ?_, fun paused => ?_, fun unplayed unpaused => ?_⟩
  · have closed (m : Mic) : missed m = min (65535 - ((s.room r).singers.get m).judged)
        (missedOnsets m ((s.room r).melody.notes.filter fun n => n.stop ≤ t)) := by
      rw [counted, missedOnsets, List.filter_filter]
      exact congrArg (fun f => min _ (List.filter f _).length)
        (funext fun n => (Bool.and_assoc ..).trans (Bool.and_comm ..))
    rw [Room.passNotes_of_playing playing, closeNotes_eq]
    simp only [Singer.missing, closed]
    rfl
  · rw [Room.passNotes_of_paused paused]
  · rw [Room.passNotes_elsewhere unplayed unpaused, State.setRoom_room]

/-- Settles O38, by whether each timer has run out. -/
theorem markAndCueTimersExpire : Obligations.MarkAndCueTimersExpire := by
  intro s r
  refine ⟨fun out playing => ?_, fun time => ?_, fun e es out cueing entries others => ?_, fun ungraded m => ?_, fun time => ?_⟩
  · exact congrArg finish (State.markExpiry_of_playing out playing)
  · exact congrArg finish (State.markExpiry_of_time time)
  · refine congrArg finish ?_
    rw [State.cueExpiry_eq (RequestQueue.head?_of_entries entries) out cueing, RequestQueue.without_head entries others]
    rfl
  · rw [Room.singerEntry_eq, if_pos (.inr (ungraded m))]
  · exact congrArg finish (State.cueExpiry_of_time time)

/-- Settles O39, by whether each timer has run out. -/
theorem roomTimersExpire : Obligations.RoomTimersExpire := by
  refine ⟨fun s r => ⟨fun out result => ?_, fun time => ?_, fun out => ?_, fun time => ?_⟩,
    fun s r => ⟨fun e es out entries offered => ?_, fun time => ?_⟩⟩
  · refine congrArg finish ((State.holdExpiry_of_result out result).trans ?_)
    rfl
  · exact congrArg finish (State.holdExpiry_of_time time)
  · exact congrArg finish (State.staleExpiry_of_out out)
  · exact congrArg finish (State.staleExpiry_of_time time)
  · exact congrArg finish (State.offerExpiry_of_offered out entries offered)
  · exact congrArg finish (State.offerExpiry_of_time time)

end Sys2Proof.Machine
end

section
/-! SUPPORT. What a tick does (R3, R23 to R25, R28, R34 to R36): the arithmetic of the clock as one written-out update,
over one tick and over many, the knob's step as a table of transitions, and the hand-overs of a tick. -/

namespace Sys2Proof.Machine

/-! ## The arithmetic of a tick (R24, R25) -/

/-- The advances due less those that credits add and take; a catch-up credit counts one down, and a hold credit by
what it cancels. -/
theorem Timeline.advance_eq (t : Timeline) :
    t.advance =
      { t with
        accumulator := (t.accumulator + t.tempo) % 100
        clock := t.cap (t.clock + if 0 < t.catchUp then t.due + 1 else t.due - min t.due t.hold)
        catchUp := t.catchUp - 1
        hold := if 0 < t.catchUp then t.hold else t.hold - min t.due t.hold } := by
  unfold Timeline.advance
  dsimp only
  split
  next => rfl
  next none =>
    have zero : t.catchUp - 1 = t.catchUp := by omega
    rw [zero]
    rfl

/-- Short of the end guard a position is held at nothing. -/
theorem Timeline.cap_of_le {t : Timeline} {p : Nat} (short : ∀ len, t.songLength = some len → p ≤ len + 3000) :
    t.cap p = p := by
  rw [Timeline.cap_eq]
  split
  next len length => exact min_eq_left (short len length)
  next => rfl

/-- With no credit and the guard out of the way the clock moves by the advances due. -/
theorem Timeline.advance_of_free {t : Timeline} (catchUp : t.catchUp = 0) (hold : t.hold = 0)
    (short : ∀ len, t.songLength = some len → t.clock + t.due ≤ len + 3000) :
    t.advance = { t with clock := t.clock + t.due, accumulator := (t.accumulator + t.tempo) % 100 } := by
  have none : ¬0 < t.catchUp := by omega
  have uncounted : t.catchUp - 1 = t.catchUp := by omega
  have uncancelled : t.hold - min t.due t.hold = t.hold := by omega
  have whole : t.due - min t.due t.hold = t.due := by omega
  rw [Timeline.advance_eq, if_neg none, if_neg none, uncounted, uncancelled, whole, Timeline.cap_of_le short]

/-- Settles O32, by induction on the number of ticks. -/
theorem tempoOverManyTicks : Obligations.TempoOverManyTicks := by
  intro n t accumulator catchUp hold short
  induction n with
  | zero => simp [Nat.div_eq_of_lt (Nat.lt_succ_of_le accumulator), Nat.mod_eq_of_lt (Nat.lt_succ_of_le accumulator)]
  | succ n ih =>
    have sum : t.accumulator + (n + 1) * t.tempo = t.accumulator + n * t.tempo + t.tempo := by ring
    rw [sum] at short ⊢
    rw [Function.iterate_succ_apply', ih fun len length => (by have := short len length; omega), Timeline.advance_of_free]
    · simp only [Timeline.due]
      congr 1 <;> omega
    · exact catchUp
    · exact hold
    · intro len length
      have := short len length
      simp only [Timeline.due]
      omega

/-! ## The knob (R34 to R36) -/

/-- The transitions between accepted pairs that step the count up; the same from right to left step it down (R35). -/
def knobUp : List ((Option Bool × Option Bool) × (Option Bool × Option Bool)) :=
  [((some false, some false), (some true, some false)), ((some true, some false), (some true, some true)),
    ((some true, some true), (some false, some true)), ((some false, some true), (some false, some false))]

theorem knobStep_eq : ∀ before after : Option Bool × Option Bool,
    knobStep before after = if (before, after) ∈ knobUp then 1 else if (after, before) ∈ knobUp then -1 else 0 := by
  decide

/-- The detent that a count makes, handed on. -/
def detentsMade (r : RoomId) (count : Int) : List HandOver :=
  if 4 ≤ count then [.detent r true] else if count ≤ -4 then [.detent r false] else []

theorem detentsMade_eq (r : RoomId) (count : Int) :
    detentsMade r count = ((detentMade count).map (HandOver.detent r)).toList := by
  unfold detentsMade detentMade
  split_ifs <;> rfl

/-- The count that makes a detent is reset. -/
theorem Timeline.sampleKnob_eq (t : Timeline) (r : RoomId) (a b : Bool) :
    t.sampleKnob a b =
      { t with
        knobA := t.knobA.sample a, knobB := t.knobB.sample b
        detents := if detentsMade r (t.stepped a b) = [] then t.stepped a b else 0 } := by
  rw [Timeline.sampleKnob, detentsMade_eq]
  cases detentMade (t.stepped a b) <;> rfl

section

variable {s : State} {r : RoomId} {a b : Bool}

/-- The knob sampled, and the detent that it makes handed on. -/
theorem State.sampleKnob_eq (s : State) (r : RoomId) (a b : Bool) :
    s.sampleKnob r a b =
      { s.setRoom r { s.room r with timeline := (s.room r).timeline.sampleKnob a b } with
        handed := s.handed ++ detentsMade r ((s.room r).timeline.stepped a b) } := by
  rw [detentsMade_eq]
  cases made : detentMade ((s.room r).timeline.stepped a b) with
  | none => simp only [State.sampleKnob, made, Option.map_none, Option.toList_none, List.append_nil]; rfl
  | some clockwise => simp only [State.sampleKnob, made]; rfl

/-! ## The clock of a room (R24, R25, R28) -/

theorem State.advance_of_playing (playing : (s.room r).phase = .playing) :
    s.advance r =
      { s.setRoom r { s.room r with timeline := (s.room r).timeline.advance } with
        handed := s.handed ++
          if (s.room r).timeline.advance.clock = (s.room r).timeline.clock then []
          else [HandOver.toGuard r (s.room r).timeline.advance.clock, .toScore r (s.room r).timeline.advance.clock,
            .toLyrics r false] } := by
  have room := State.room_modRoom_self s r fun rm => { rm with timeline := rm.timeline.advance }
  have clock := congrArg (fun rm : Room => rm.timeline.clock) room
  by_cases same : (s.room r).timeline.advance.clock = (s.room r).timeline.clock
  · rw [if_pos same, List.append_nil, State.advance, if_pos playing]
    exact if_pos (clock.trans same)
  · rw [if_neg same, State.advance, if_pos playing]
    refine (if_neg (mt clock.symm.trans same)).trans ?_
    rw [State.handClockChange_eq, room]
    rfl

theorem State.advance_elsewhere (other : (s.room r).phase ≠ .playing) : s.advance r = s := if_neg other

theorem exec_timelineTick (released : s.link.resetLine = false) :
    exec (.timelineTick r a b) s = .next (s.tick r a b).startUplink := by
  refine congrArg finish ?_
  rw [State.unlessReset, released]
  rfl

/-- The room of a tick once its timers have lost their millisecond and its knob has been sampled. -/
def Room.ticked (a b : Bool) (rm : Room) : Room := { rm.elapse with timeline := rm.timeline.sampleKnob a b }

theorem State.tick_eq (s : State) (r : RoomId) (a b : Bool) :
    s.tick r a b =
      ({ s.setRoom r ((s.room r).ticked a b) with
        handed := s.handed ++ detentsMade r ((s.room r).timeline.stepped a b) }).advance r := by
  rw [State.tick, State.sampleKnob_eq, State.room_modRoom_self, State.modRoom_eq, State.setRoom_setRoom]
  rfl

theorem State.tick_elsewhere (other : (s.room r).phase ≠ .playing) :
    s.tick r a b =
      { s.setRoom r ((s.room r).ticked a b) with
        handed := s.handed ++ detentsMade r ((s.room r).timeline.stepped a b) } := by
  rw [State.tick_eq, State.advance_elsewhere]
  exact ne_of_eq_of_ne (congrArg Room.phase (State.room_setRoom_self ..)) other

theorem State.tick_of_playing {n : Timeline} (playing : (s.room r).phase = .playing)
    (advanced : ((s.room r).timeline.sampleKnob a b).advance = n) :
    s.tick r a b =
      { s.setRoom r { (s.room r).ticked a b with timeline := n } with
        handed := s.handed ++ detentsMade r ((s.room r).timeline.stepped a b) ++
          if n.clock = (s.room r).timeline.clock then []
          else [HandOver.toGuard r n.clock, .toScore r n.clock, .toLyrics r false] } := by
  subst advanced
  have room : ({ s.setRoom r ((s.room r).ticked a b) with
      handed := s.handed ++ detentsMade r ((s.room r).timeline.stepped a b) } : State).room r =
      (s.room r).ticked a b := State.room_setRoom_self ..
  rw [State.tick_eq, State.advance_of_playing (by rw [room]; exact playing), room]
  simp only [State.setRoom, Vector.set_set]
  rfl

end

/-- Settles O31, by the reset line, the knob's step and whether the room plays. -/
theorem timelineTickAdvancesTheClock : Obligations.TimelineTickAdvancesTheClock := by
  intro s r a b
  refine ⟨fun asserted => ?_, fun released => ?_⟩
  · refine congrArg finish ?_
    rw [State.unlessReset, asserted]
    rfl
  rintro t k rm due elapse sample up before after count made rfl passing elapsed rfl rfl rfl rfl counted rfl sampled
  have timers : elapse = Timer.elapse := by
    rw [passing]; funext x; cases x <;> rfl
  subst timers
  have step : (s.room r).timeline.stepped a b = count := by
    rw [counted, Timeline.stepped, knobStep_eq]
    rfl
  have sampledTo : (s.room r).timeline.sampleKnob a b = k := by
    rw [sampled, Timeline.sampleKnob_eq _ r, step]
    rfl
  have room : (s.room r).ticked a b = { rm with timeline := k } := by
    rw [elapsed, Room.ticked, sampledTo]
    cases stale : (s.room r).staleTimer <;> simp only [Room.elapse, stale] <;> rfl
  rw [exec_timelineTick released]
  refine ⟨fun other => ?_, ?_⟩
  · rw [State.tick_elsewhere other, step, room]
    rfl
  · rintro playing rfl c n moved stands
    have held : k.cap (k.clock + if 0 < k.catchUp then k.due + 1 else k.due - min k.due k.hold) = c := by
      rw [moved, Timeline.cap_eq, sampled]
      cases length : (s.room r).timeline.songLength with
      | none => rfl
      | some len => exact min_comm ..
    have advanced : ((s.room r).timeline.sampleKnob a b).advance = n := by
      rw [sampledTo, Timeline.advance_eq, held, stands, sampled]
      rfl
    have clock : n.clock = c := by rw [stands]
    rw [State.tick_of_playing playing advanced, step, room, clock]
    rfl

end Sys2Proof.Machine
end

section
/-! SUPPORT. What the frame buffer manager does (R62, R63, R79 to R87): the one buffer that a role names, the distance
between sequences, each way that a cell is taken, the completion of a frame, and the rotation with its snapshot. -/

namespace Sys2Proof.Machine

/-! ## Buffers by role (R79) -/

section

variable {v : FrameManager}

/-- The lowest of the buffers in a role is the one that the role names. -/
theorem FrameManager.withRole_of_lowest {x : Role} {b : Fin 3} (role : v.roles.get b = x)
    (lowest : ∀ c, c < b → v.roles.get c ≠ x) : v.withRole x = some b := by
  fin_cases b
  · have role : v.roles.get 0 = x := role
    simp [FrameManager.withRole, role]
  · have role : v.roles.get 1 = x := role
    have first : v.roles.get 0 ≠ x := lowest 0 (by decide)
    simp [FrameManager.withRole, role, first]
  · have role : v.roles.get 2 = x := role
    have first : v.roles.get 0 ≠ x := lowest 0 (by decide)
    have second : v.roles.get 1 ≠ x := lowest 1 (by decide)
    simp [FrameManager.withRole, role, first, second]

/-- A role that one buffer has at most. -/
theorem FrameManager.role_unique {x : Role} (few : v.inRole x ≤ 1) {b c : Fin 3} (at_b : v.roles.get b = x)
    (at_c : v.roles.get c = x) : c = b := by
  by_contra other
  obtain ⟨y, different⟩ : ∃ y : Role, y ≠ x := by
    by_cases free : x = .free
    · exact ⟨.front, by rw [free]; decide⟩
    · exact ⟨.free, Ne.symm free⟩
  have stays : (v.setRole b y).roles.get c = x := (FrameManager.get_setRole_of_ne other y).trans at_c
  have counted := FrameManager.inRole_setRole (v := v) b y x
  have one := FrameManager.inRole_pos stays
  simp only [at_b, if_true, if_neg different] at counted
  omega

theorem FrameManager.withRole_of_unique {x : Role} (few : v.inRole x ≤ 1) {b : Fin 3} (role : v.roles.get b = x) :
    v.withRole x = some b :=
  FrameManager.withRole_of_lowest role fun _ less at_c => less.ne (FrameManager.role_unique few role at_c)

theorem FrameManager.withRole_eq_none {x : Role} (absent : ∀ c, v.roles.get c ≠ x) : v.withRole x = none :=
  List.find?_eq_none.2 fun c _ => by simpa using absent c

theorem FrameManager.RolesAgree.filling_le (roles : v.RolesAgree) : v.inRole .filling ≤ 1 := by
  obtain ⟨-, -, filling, -⟩ := roles
  rw [filling]; split <;> decide

end

/-! ## Segments (R80 to R83) -/

/-- The forward distance between two sequences, modulo 65,536. -/
theorem forward_eq (reference sequence : Nat) :
    forward reference sequence = (((sequence : Int) - (reference : Int)) % 65536).toNat := by
  unfold forward; omega

/-- A VIDEO payload is a segment when it is of the length of one, and its line and its segment are in range. -/
theorem readSegment_of_wf {p : List Byte} (wf : p.length = 645 ∧ u16 p 2 ≤ 719 ∧ u8 p 4 ≤ 3) :
    readSegment p = some ⟨u16 p 0, 4 * u16 p 2 + u8 p 4, p.drop 5⟩ :=
  if_pos ⟨wf.1, Nat.lt_succ_of_le wf.2.1, Nat.lt_succ_of_le wf.2.2⟩

theorem readSegment_of_malformed {p : List Byte} (bad : ¬(p.length = 645 ∧ u16 p 2 ≤ 719 ∧ u8 p 4 ≤ 3)) :
    readSegment p = none :=
  if_neg fun ⟨length, line, segment⟩ => bad ⟨length, Nat.le_of_lt_succ line, Nat.le_of_lt_succ segment⟩

/-- A flag is set once, and counted then. -/
theorem FillRecord.mark_eq (f : FillRecord) (index : Nat) :
    f.mark index =
      { f with
        bitmap := if f.bitmap.getLsbD index then f.bitmap else f.bitmap ||| BitVec.twoPow Config.segments index
        count := if f.bitmap.getLsbD index then f.count else f.count + 1 } := by
  unfold FillRecord.mark FillRecord.has
  split <;> rfl

/-- The first flag of a record just opened. -/
theorem FillRecord.fresh_mark (sequence index : Nat) :
    (FillRecord.fresh sequence).mark index = ⟨sequence, BitVec.twoPow Config.segments index, 1⟩ := by
  rw [FillRecord.mark_eq]
  simp [FillRecord.fresh]

section

variable {v : FrameManager} {g : Segment} {f : FillRecord} {b : Fin 3}

theorem FrameManager.writeSegment_eq (filling : v.withRole .filling = some b) (opened : v.record = some f) :
    v.writeSegment g =
      { v with
        pictures := v.pictures.set b (memWrite blackByte (v.pictures.get b) (640 * g.index) g.bytes)
        record := some (f.mark g.index) } := by
  simp only [FrameManager.writeSegment, filling, opened]
  rfl

theorem FrameManager.abandon_eq (filling : v.withRole .filling = some b) :
    v.abandon g =
      { v with
        pictures := v.pictures.set b (memWrite blackByte (v.pictures.get b) (640 * g.index) g.bytes)
        record := some ⟨g.sequence, BitVec.twoPow Config.segments g.index, 1⟩
        abandoned := satInc v.abandoned } := by
  rw [FrameManager.abandon, FrameManager.writeSegment_eq
    (v := { v with abandoned := satInc v.abandoned, record := some (.fresh g.sequence) }) filling rfl,
    FillRecord.fresh_mark]

/-- A frame is opened in the lowest FREE buffer, which is then the one that is FILLING. -/
theorem FrameManager.openFrame_eq (free : v.withRole .free = some b) (none : v.inRole .filling = 0) :
    v.openFrame g =
      { v with
        roles := v.roles.set b .filling
        pictures := v.pictures.set b (memWrite blackByte (v.pictures.get b) (640 * g.index) g.bytes)
        record := some ⟨g.sequence, BitVec.twoPow Config.segments g.index, 1⟩ } := by
  have counted := FrameManager.inRole_setRole (v := v) b .filling .filling
  have few : (v.setRole b .filling).inRole .filling ≤ 1 := by rw [counted, none]; simp
  have filling : (v.setRole b .filling).withRole .filling = some b :=
    FrameManager.withRole_of_unique few (Vector.get_set_self ..)
  have opened : ({ v.setRole b .filling with record := some (.fresh g.sequence) } : FrameManager).withRole .filling =
      some b := filling
  simp only [FrameManager.openFrame, free]
  rw [FrameManager.writeSegment_eq opened rfl, FillRecord.fresh_mark]
  rfl

/-- A segment of the frame being gathered joins it. -/
theorem FrameManager.takeSegment_of_same (opened : v.record = some f) (same : forward f.sequence g.sequence = 0) :
    v.takeSegment g = v.writeSegment g := by
  simp only [FrameManager.takeSegment, opened, same, if_true]

theorem FrameManager.takeSegment_of_newer (opened : v.record = some f) (low : 1 ≤ forward f.sequence g.sequence)
    (high : forward f.sequence g.sequence ≤ 32767) : v.takeSegment g = v.abandon g := by
  have other : forward f.sequence g.sequence ≠ 0 := by omega
  have newer : forward f.sequence g.sequence < 32768 := by omega
  simp only [FrameManager.takeSegment, opened, if_neg other, if_pos newer]

theorem FrameManager.takeSegment_of_older (opened : v.record = some f) (old : 32768 ≤ forward f.sequence g.sequence) :
    v.takeSegment g = v.discard := by
  have other : forward f.sequence g.sequence ≠ 0 := by omega
  simp only [FrameManager.takeSegment, opened, if_neg other, if_neg (not_lt.2 old)]

theorem FrameManager.takeSegment_of_first (closed : v.record = none)
    (newer : ∀ last ∈ v.lastCompleted, 1 ≤ forward last g.sequence ∧ forward last g.sequence ≤ 32767) :
    v.takeSegment g = v.openFrame g := by
  cases before : v.lastCompleted with
  | none => simp only [FrameManager.takeSegment, closed, before]
  | some last =>
    obtain ⟨low, high⟩ := newer last before
    have other : forward last g.sequence ≠ 0 := by omega
    have within : forward last g.sequence < 32768 := by omega
    simp only [FrameManager.takeSegment, closed, before, if_neg other, if_pos within]

theorem FrameManager.takeSegment_of_completed {last : Nat} (closed : v.record = none) (before : v.lastCompleted = some last)
    (old : forward last g.sequence = 0 ∨ 32768 ≤ forward last g.sequence) : v.takeSegment g = v.discard := by
  rcases old with same | old
  · simp only [FrameManager.takeSegment, closed, before, same, if_true]
  · have other : forward last g.sequence ≠ 0 := by omega
    simp only [FrameManager.takeSegment, closed, before, if_neg other, if_neg (not_lt.2 old)]

/-! ## When a frame completes (R86) -/

theorem FrameManager.completionDue_iff : v.completionDue = true ↔ ∃ f, v.record = some f ∧ 2880 ≤ f.count := by
  cases record : v.record with
  | none => simp [FrameManager.completionDue, record]
  | some f =>
    simp only [FrameManager.completionDue, record, Option.any_some, decide_eq_true_eq, Option.some.injEq, exists_eq_left']
    rfl

/-- What a written segment leaves of the record. -/
theorem FrameManager.writeSegment_record (v : FrameManager) (g : Segment) :
    (v.writeSegment g).record = v.record ∨ ∃ f, v.record = some f ∧ (v.writeSegment g).record = some (f.mark g.index) := by
  unfold FrameManager.writeSegment
  split
  next b f _ opened => exact .inr ⟨f, opened, rfl⟩
  next => exact .inl rfl

/-- A record just opened is not due. -/
theorem FrameManager.not_due_of_fresh {sequence : Nat} (opened : v.record = some (.fresh sequence)) :
    ¬(v.writeSegment g).completionDue = true := by
  rw [FrameManager.completionDue_iff]
  rintro ⟨f, record, due⟩
  rcases v.writeSegment_record g with same | ⟨f', record', marked⟩
  · cases record.symm.trans (same.trans opened)
    exact absurd due (show ¬2880 ≤ 0 by decide)
  · cases record'.symm.trans opened
    rw [FillRecord.fresh_mark] at marked
    cases record.symm.trans marked
    exact absurd due (show ¬2880 ≤ 1 by decide)

/-- A segment completes a frame only when it is of that frame, its flag clear, and the last one. -/
theorem FrameManager.due_of_takeSegment (roles : v.RolesAgree) (due : (v.takeSegment g).completionDue = true) :
    ∃ f, v.record = some f ∧ forward f.sequence g.sequence = 0 ∧ f.bitmap.getLsbD g.index = false ∧ 2879 ≤ f.count := by
  obtain ⟨-, -, -, short⟩ := roles
  have unopened (w : FrameManager) (record : w.record = v.record) : ¬w.completionDue = true := by
    rw [FrameManager.completionDue_iff, record]
    rintro ⟨f, opened, full⟩
    exact absurd (short f opened) (not_lt.2 full)
  have opening : ¬(v.openFrame g).completionDue = true := by
    unfold FrameManager.openFrame
    split
    next b _ => exact FrameManager.not_due_of_fresh rfl
    next => exact unopened v rfl
  unfold FrameManager.takeSegment at due
  split at due
  next f opened =>
    dsimp only at due
    split at due
    next same =>
      obtain ⟨f', record, full⟩ := FrameManager.completionDue_iff.1 due
      rcases v.writeSegment_record g with stays | ⟨f'', opened', marked⟩
      · exact absurd due (unopened _ stays)
      · cases opened'.symm.trans opened
        rw [FillRecord.mark_eq] at marked
        cases record.symm.trans marked
        cases flag : f.bitmap.getLsbD g.index with
        | true =>
          simp only [flag, if_true] at full
          exact absurd (short f opened) (not_lt.2 full)
        | false =>
          simp only [flag, Bool.false_eq_true, if_false] at full
          exact ⟨f, opened, same, flag, by omega⟩
    next =>
      split at due
      · exact absurd due (FrameManager.not_due_of_fresh rfl)
      · exact absurd due (unopened _ rfl)
  next closed =>
    split at due
    next => exact absurd due opening
    next =>
      dsimp only at due
      split_ifs at due
      · exact absurd due (unopened _ rfl)
      · exact absurd due opening
      · exact absurd due (unopened _ rfl)

/-- The FILLING frame becomes READY when none was. -/
theorem FrameManager.complete_eq (noReady : ∀ c, v.roles.get c ≠ .ready) (filling : v.withRole .filling = some b)
    (opened : v.record = some f) :
    v.complete =
      { v with
        roles := v.roles.set b .ready
        lastCompleted := some f.sequence, record := none, completed := satInc v.completed } := by
  have kept : v.dropReady = v := by simp only [FrameManager.dropReady, FrameManager.withRole_eq_none noReady]
  simp only [FrameManager.complete, kept, filling, opened]
  rfl

/-- A READY frame before it becomes FREE and is counted. -/
theorem FrameManager.complete_of_ready {c : Fin 3} (few : v.inRole .ready ≤ 1) (lone : v.inRole .filling ≤ 1)
    (ready : v.roles.get c = .ready) (filling : v.roles.get b = .filling) (opened : v.record = some f) :
    v.complete =
      { v with
        roles := (v.roles.set c .free).set b .ready, dropped := satInc v.dropped
        lastCompleted := some f.sequence, record := none, completed := satInc v.completed } := by
  have apart : b ≠ c := by rintro rfl; cases filling.symm.trans ready
  have dropped : v.dropReady = { v.setRole c .free with dropped := satInc v.dropped } := by
    simp only [FrameManager.dropReady, FrameManager.withRole_of_unique few ready]
  have counted := FrameManager.inRole_setRole (v := v) c .free .filling
  have still : (v.setRole c .free).withRole .filling = some b := by
    refine FrameManager.withRole_of_unique ?_ ((FrameManager.get_setRole_of_ne apart _).trans filling)
    rw [counted]
    simp [ready, lone]
  have filling : ({ v.setRole c .free with dropped := satInc v.dropped } : FrameManager).withRole .filling = some b := still
  have opened : ({ v.setRole c .free with dropped := satInc v.dropped } : FrameManager).record = some f := opened
  simp only [FrameManager.complete, dropped, filling, opened]
  rfl

end

/-! ## Rooms that take a cell (R82 to R86) -/

section

variable {rm : Room} {p : List Byte}

theorem Room.takeVideo_of_dark (dark : rm.phase = .dark) : rm.takeVideo p = rm := if_pos dark

/-- A cell that leaves no frame due changes the manager alone. -/
theorem Room.takeVideo_of_short {w : FrameManager} (lit : rm.phase ≠ .dark) (gathered : rm.gather p = { rm with video := w })
    (short : ∀ f ∈ w.record, f.count < 2880) : rm.takeVideo p = { rm with video := w } := by
  have undue : ¬w.completionDue = true := by
    rw [FrameManager.completionDue_iff]
    rintro ⟨f, opened, full⟩
    exact absurd (short f opened) (not_lt.2 full)
  rw [Room.takeVideo, if_neg lit, gathered]
  exact if_neg undue

theorem Room.gather_of_malformed (bad : readSegment p = none) : rm.gather p = { rm with video := rm.video.discard } := by
  simp only [Room.gather, bad]

theorem Room.gather_of_segment {g : Segment} (read : readSegment p = some g) :
    rm.gather p = { rm with video := rm.video.takeSegment g } := by
  simp only [Room.gather, read]

/-- The video-stale timer at a completed frame: started again, or in RESULT suspended at its full time (R15). -/
theorem Room.restartStale_eq (lit : rm.phase ≠ .dark) :
    rm.restartStale = { rm with staleTimer := if rm.phase = .result then .suspended 2000 else .running 2000 } := by
  unfold Room.restartStale
  split
  next dark => exact absurd dark lit
  all_goals next phase => rw [phase]; rfl

/-- A cell that fills a frame completes it (R86). -/
theorem Room.takeVideo_of_due {w : FrameManager} (lit : rm.phase ≠ .dark) (gathered : rm.gather p = { rm with video := w })
    (due : w.completionDue = true) :
    rm.completedBy p = true ∧
      rm.takeVideo p =
        { rm with
          video := w.complete, staleTimer := if rm.phase = .result then .suspended 2000 else .running 2000 } := by
  constructor
  · rw [Room.completedBy, gathered, due, Bool.and_true]
    exact decide_eq_true lit
  · rw [Room.takeVideo, if_neg lit, gathered]
    refine (if_pos due).trans ?_
    exact Room.restartStale_eq (rm := { rm with video := w.complete }) lit

theorem Room.completedBy_dark (dark : rm.phase = .dark) : rm.completedBy p = false := by
  simp [Room.completedBy, dark]

/-- A cell completes a frame only as the last segment of it whose flag is clear. -/
theorem Room.due_of_completedBy (roles : rm.video.RolesAgree) (completes : rm.completedBy p = true) :
    (p.length = 645 ∧ u16 p 2 ≤ 719 ∧ u8 p 4 ≤ 3) ∧ ∃ f, rm.video.record = some f ∧
      forward f.sequence (u16 p 0) = 0 ∧ f.bitmap.getLsbD (4 * u16 p 2 + u8 p 4) = false ∧ 2879 ≤ f.count := by
  obtain ⟨-, due⟩ := Bool.and_eq_true_iff.1 completes
  by_cases wf : p.length = 645 ∧ u16 p 2 ≤ 719 ∧ u8 p 4 ≤ 3
  · rw [Room.gather_of_segment (readSegment_of_wf wf)] at due
    exact ⟨wf, FrameManager.due_of_takeSegment roles due⟩
  · rw [Room.gather_of_malformed (readSegment_of_malformed wf), FrameManager.completionDue_iff] at due
    obtain ⟨f, opened, full⟩ := due
    exact absurd (roles.2.2.2 f opened) (not_lt.2 full)

end

section

variable {s : State} {r : RoomId} {p : List Byte} {before rest : List HandOver}

theorem HandOver.videoOf_self (r : RoomId) (p : List Byte) : HandOver.videoOf r (.video r p) = some p := if_pos rfl

theorem HandOver.videoOf_eq_none {hs : List HandOver} (absent : ∀ p, HandOver.video r p ∉ hs) :
    ∀ y ∈ hs, HandOver.videoOf r y = none := by
  intro y member
  cases y with
  | video q p => exact if_neg fun same : q = r => absent p (same ▸ member)
  | _ => rfl

theorem exec_video_first (first : ∀ p, HandOver.video r p ∉ before) :
    exec (.video r) { s with handed := before ++ .video r p :: rest } =
      .next ({ s.setRoom r ((s.room r).takeVideo p) with handed := before ++ rest }).startUplink :=
  congrArg finish (State.takeHanded_of_first (HandOver.videoOf_eq_none first) (HandOver.videoOf_self r p) _)

theorem exec_video_split (first : ∀ p, HandOver.video r p ∉ before) (split : s.handed = before ++ .video r p :: rest) :
    exec (.video r) s = .next ({ s.setRoom r ((s.room r).takeVideo p) with handed := before ++ rest }).startUplink :=
  congrArg finish (State.takeHanded_of_split (HandOver.videoOf_eq_none first) (HandOver.videoOf_self r p) split _)

/-- FRAME_COMPLETION takes the oldest waiting cell when that completes the frame. -/
theorem State.frameCompletion_split (first : ∀ p, HandOver.video r p ∉ before)
    (split : s.handed = before ++ .video r p :: rest) :
    s.frameCompletion r =
      if (s.room r).completedBy p then { s.setRoom r ((s.room r).takeVideo p) with handed := before ++ rest } else s := by
  simp only [State.frameCompletion, split,
    takeFirst_append (HandOver.videoOf_eq_none first) (HandOver.videoOf_self r p)]
  rfl

theorem State.frameCompletion_of_absent (absent : ∀ p, HandOver.video r p ∉ s.handed) : s.frameCompletion r = s := by
  simp only [State.frameCompletion, takeFirst_none.2 (HandOver.videoOf_eq_none absent)]

/-- No waiting cell that completes a frame: no effect. -/
theorem State.frameCompletion_of_undue (undue : ∀ p, HandOver.video r p ∈ s.handed → (s.room r).completedBy p = false) :
    s.frameCompletion r = s := by
  unfold State.frameCompletion
  split
  next p rest taken =>
    obtain ⟨h, member, accepts⟩ := (State.mem_of_takeFirst taken).1
    have is : h = .video r p := by
      cases h with
      | video q p' =>
        obtain ⟨rfl, rfl⟩ : q = r ∧ p' = p := by simpa [HandOver.videoOf] using accepts
        rfl
      | _ => cases accepts
    rw [undue p (is ▸ member)]
    rfl
  next => rfl

end

/-! ## Rotation and snapshot (R62, R63, R87) -/

section

variable {v : FrameManager}

theorem FrameManager.rotate_of_none (noReady : ∀ c, v.roles.get c ≠ .ready) : v.rotate = v := by
  simp only [FrameManager.rotate, FrameManager.withRole_eq_none noReady]

theorem FrameManager.rotate_of_ready {o c : Fin 3} (roles : v.RolesAgree) (front : v.roles.get o = .front)
    (ready : v.roles.get c = .ready) : v.rotate = (v.setRole o .free).setRole c .front := by
  obtain ⟨one, few, -⟩ := roles
  simp only [FrameManager.rotate, FrameManager.withRole_of_unique few ready, FrameManager.withRole_of_unique one.le front]

/-- One buffer is FRONT after a rotation. -/
theorem FrameManager.front_of_rotate {o c : Fin 3} (roles : v.RolesAgree) (front : v.roles.get o = .front) :
    ((v.setRole o .free).setRole c .front).inRole .front ≤ 1 := by
  obtain ⟨one, -⟩ := roles
  have old : (v.setRole o .free).inRole .front = 0 := by
    rw [FrameManager.inRole_setRole, one]
    simp [front]
  rw [FrameManager.inRole_setRole, old]
  simp

theorem FrameManager.front_eq {b : Fin 3} (few : v.inRole .front ≤ 1) (front : v.roles.get b = .front) :
    v.front = v.pictures.get b := by
  simp only [FrameManager.front, FrameManager.withRole_of_unique few front]

/-- A pending table becomes the active one. -/
theorem Compositor.commit_eq (c : Compositor) : c.commit = { c with active := c.slot.getD c.active, slot := none } := by
  cases slot : c.slot with
  | none => simp only [Compositor.commit, slot, Option.getD_none]; rw [← slot]
  | some bs => simp only [Compositor.commit, slot, Option.getD_some]

theorem exec_outputFrameStart {s : State} (r : RoomId) (released : s.link.resetLine = false) :
    exec (.outputFrameStart r) s = .next (s.setRoom r ((s.room r).frameStart s.glyphs)).startUplink := by
  refine congrArg finish ?_
  rw [State.unlessReset, released]
  rfl

end

/-! ## The obligations -/

/-- Settles O40, by whether the cell is a segment and by the distance of its sequence. -/
theorem videoCellsAreGathered : Obligations.VideoCellsAreGathered := by
  rintro s r p before rest v byte two wellFormed sequence index ahead first rfl roles rfl rfl wf rfl rfl rfl
  rw [exec_video_first (s := s) first]
  refine ⟨fun dark => ?_, fun w lit short kinds => ?_⟩
  · rw [Room.takeVideo_of_dark dark, State.setRoom_room]
  have lone := FrameManager.RolesAgree.filling_le roles
  have gathered : (s.room r).gather p = { s.room r with video := w } := by
    rcases kinds with ⟨bad, rfl⟩ | ⟨good, kinds⟩
    · exact Room.gather_of_malformed (readSegment_of_malformed (mt wf.2 bad))
    rw [Room.gather_of_segment (readSegment_of_wf (wf.1 good))]
    congr 1
    rcases kinds with ⟨f, b, opened, filling, same, rfl⟩ | ⟨f, b, opened, filling, low, high, rfl⟩ | ⟨f, opened, old, rfl⟩ |
      ⟨b, closed, newer, free, lowest, rfl⟩ | ⟨last, closed, completed, old, rfl⟩
    · have near : forward f.sequence (u16 p 0) = 0 := by
        rw [forward_eq, show f.sequence = u16 p 0 from same, sub_self]
        rfl
      rw [FrameManager.takeSegment_of_same opened near,
        FrameManager.writeSegment_eq (FrameManager.withRole_of_unique lone filling) opened, FillRecord.mark_eq]
      rfl
    · rw [FrameManager.takeSegment_of_newer opened ((forward_eq ..).symm ▸ low) ((forward_eq ..).symm ▸ high),
        FrameManager.abandon_eq (FrameManager.withRole_of_unique lone filling)]
      rfl
    · exact FrameManager.takeSegment_of_older opened ((forward_eq ..).symm ▸ old)
    · have none : (s.room r).video.inRole .filling = 0 := by rw [roles.2.2.1, closed]; rfl
      rw [FrameManager.takeSegment_of_first closed, FrameManager.openFrame_eq (FrameManager.withRole_of_lowest free lowest) none]
      · rfl
      · intro last member
        rw [forward_eq]
        exact newer last member
    · refine FrameManager.takeSegment_of_completed closed completed ?_
      rw [forward_eq]
      exact old
  rw [Room.takeVideo_of_short lit gathered short]

/-- Settles O41, by whether the waiting cell completes a frame and by whether another is READY. -/
theorem frameCompletionMakesReady : Obligations.FrameCompletionMakesReady := by
  rintro s r v rfl roles two wellFormed index rfl rfl rfl
  refine ⟨fun undue => ?_, fun before rest p f split first opened other => ?_, ?_⟩
  · refine congrArg finish ?_
    rcases undue with absent | dark | short
    · exact State.frameCompletion_of_absent absent
    · exact State.frameCompletion_of_undue fun p _ => Room.completedBy_dark dark
    · refine State.frameCompletion_of_undue fun p _ => Bool.eq_false_iff.2 fun completes => ?_
      obtain ⟨-, f, opened, -, -, full⟩ := Room.due_of_completedBy roles completes
      exact absurd (short f opened) (not_lt.2 full)
  · refine congrArg finish ?_
    rw [State.frameCompletion_split first split, if_neg]
    intro completes
    obtain ⟨wf, f', opened', same, clear, -⟩ := Room.due_of_completedBy roles completes
    cases opened'.symm.trans opened
    rw [forward_eq] at same
    rcases other wf with distant | set
    · have zero : ((u16 p 0 : Int) - (f.sequence : Int)) % 65536 = 0 := by omega
      exact distant zero
    · exact Bool.false_ne_true (clear.symm.trans set)
  · rintro before rest p f b w timer split first lit opened count filling wf same clear rfl rfl
    have lone := FrameManager.RolesAgree.filling_le roles
    have near : forward f.sequence (u16 p 0) = 0 := by
      rw [forward_eq, show u16 p 0 = f.sequence from same, sub_self]
      rfl
    obtain ⟨full, written⟩ : ∃ full : FrameManager, full = { (s.room r).video with
        pictures := (s.room r).video.pictures.set b
          (memWrite blackByte ((s.room r).video.pictures.get b) (640 * (4 * u16 p 2 + u8 p 4)) (p.drop 5))
        record := some (f.mark (4 * u16 p 2 + u8 p 4)) } := ⟨_, rfl⟩
    have same : full.roles = (s.room r).video.roles := by rw [written]
    have record : full.record = some (f.mark (4 * u16 p 2 + u8 p 4)) := by rw [written]
    have gathered : (s.room r).gather p = { s.room r with video := full } := by
      rw [written, Room.gather_of_segment (readSegment_of_wf wf), FrameManager.takeSegment_of_same opened near,
        FrameManager.writeSegment_eq (FrameManager.withRole_of_unique lone filling) opened]
    have marked : (f.mark (4 * u16 p 2 + u8 p 4)).count = 2880 ∧
        (f.mark (4 * u16 p 2 + u8 p 4)).sequence = f.sequence := by
      have clear : f.bitmap.getLsbD (4 * u16 p 2 + u8 p 4) = false := clear
      simp [FillRecord.mark_eq, clear, count]
    obtain ⟨completes, taken⟩ := Room.takeVideo_of_due lit gathered
      (FrameManager.completionDue_iff.2 ⟨_, record, marked.1.ge⟩)
    have both (u : State) (is : u = { s.setRoom r ((s.room r).takeVideo p) with handed := before ++ rest }) :
        exec (.video r) s = .next u.startUplink ∧ exec (.frameCompletion r) s = .next u.startUplink := by
      subst is
      exact ⟨exec_video_split first split, congrArg finish ((State.frameCompletion_split first split).trans (if_pos completes))⟩
    refine ⟨fun noReady u is => both u ?_, fun c ready u is => both u ?_⟩
    · have filling : full.withRole .filling = some b := by
        rw [written]; exact FrameManager.withRole_of_unique lone filling
      rw [is, taken, FrameManager.complete_eq (same ▸ noReady) filling record, marked.2, written]
      rfl
    · rw [is, taken, FrameManager.complete_of_ready (by rw [written]; exact roles.2.1) (by rw [written]; exact lone)
        (same ▸ ready) (same ▸ filling) record, marked.2, written]
      rfl

/-- Settles O42, by whether a buffer is READY at the frame's start. -/
theorem outputFrameStartTakesTheSnapshot : Obligations.OutputFrameStartTakesTheSnapshot := by
  intro s r
  refine ⟨fun asserted => ?_, ?_⟩
  · refine congrArg finish ?_
    rw [State.unlessReset, asserted]
    rfl
  rintro v w active o shown released rfl roles front rotated isShown rfl
  have rotate : (s.room r).video.rotate = w ∧ w.inRole .front ≤ 1 := by
    rcases rotated with ⟨rfl, noReady⟩ | ⟨c, ready, rfl⟩
    · exact ⟨FrameManager.rotate_of_none noReady, roles.1.le⟩
    · exact ⟨FrameManager.rotate_of_ready roles front ready, FrameManager.front_of_rotate roles front⟩
  obtain ⟨rotate, few⟩ := rotate
  rw [exec_outputFrameStart r released]
  simp only [Room.frameStart, rotate, Compositor.commit_eq, Room.snapshot, FrameManager.front_eq few isShown]
  cases result : (s.room r).result <;> simp only [Room.finalView] <;> rfl

end Sys2Proof.Machine
end

section
/-! SUPPORT. What a sample pair does (R92 to R97) and what the arbiter chooses (R100): the part with both samples staged
and written as one update, each way that a channel takes a sample, the first waiting channel, and the window of its
request. -/

namespace Sys2Proof.Machine

/-! ## Channels of a room -/

theorem PerMic.set_get {α : Type} (p : PerMic α) (m : Mic) : p.set m (p.get m) = p := by cases m <;> rfl

theorem State.modChannel_channelOf (s : State) (r : RoomId) (m : Mic) (f : MicChannel → MicChannel) :
    s.modChannel (channelOf r m) f =
      s.setRoom r { s.room r with mics := (s.room r).mics.set m (f ((s.room r).mics.get m)) } := by
  rw [State.modChannel, roomOf_channelOf, micOf_channelOf, State.modRoom_eq]

theorem State.channel_channelOf (s : State) (r : RoomId) (m : Mic) : s.channel (channelOf r m) = (s.room r).mics.get m := by
  rw [State.channel, roomOf_channelOf, micOf_channelOf]

/-! ## A sample staged (R93) -/

/-- A channel with a sample staged; `occupied` says that a MIC cell of its stands in the waiting slot. -/
def MicChannel.staged (occupied : Bool) (x : BitVec 16) (c : MicChannel) : MicChannel :=
  if c.completesCell then c.nextCell occupied else { c with staging := c.staging ++ [x] }

/-- The waiting slot of a channel then. -/
def MicChannel.waitingAfter (x : BitVec 16) (before : Option MicCell) (c : MicChannel) : Option MicCell :=
  if c.completesCell then some ⟨c.sequence, c.staging ++ [x]⟩ else before

theorem State.stage_eq (s : State) (r : RoomId) (m : Mic) (x : BitVec 16) :
    s.stage (channelOf r m) x =
      { s.setRoom r { s.room r with
          mics := (s.room r).mics.set m
            (((s.room r).mics.get m).staged (s.link.micWaiting.get (channelOf r m)).isSome x) } with
        link := { s.link with
          micWaiting := s.link.micWaiting.set (channelOf r m)
            (((s.room r).mics.get m).waitingAfter x (s.link.micWaiting.get (channelOf r m))) } } := by
  unfold State.stage MicChannel.staged MicChannel.waitingAfter
  rw [State.channel_channelOf]
  dsimp only
  split
  next completes => rw [State.modChannel_channelOf]; rfl
  next =>
    have same : s.link.micWaiting.set (channelOf r m) (s.link.micWaiting.get (channelOf r m)) = s.link.micWaiting :=
      Vector.set_getElem_self _
    rw [State.modChannel_channelOf, same]
    rfl

section

variable {c : MicChannel}

theorem MicChannel.completesCell_iff : c.completesCell = true ↔ 63 ≤ c.staging.length := by
  simp only [MicChannel.completesCell, decide_eq_true_eq]
  exact Nat.succ_le_succ_iff

theorem MicChannel.staged_of_last {occupied : Bool} {x : BitVec 16} (last : 63 ≤ c.staging.length) :
    c.staged occupied x = c.nextCell occupied := if_pos (MicChannel.completesCell_iff.2 last)

theorem MicChannel.waitingAfter_of_last {x : BitVec 16} {before : Option MicCell} (last : 63 ≤ c.staging.length) :
    c.waitingAfter x before = some ⟨c.sequence, c.staging ++ [x]⟩ := if_pos (MicChannel.completesCell_iff.2 last)

theorem MicChannel.staged_of_short {occupied : Bool} {x : BitVec 16} (short : c.staging.length < 63) :
    c.staged occupied x = { c with staging := c.staging ++ [x] } :=
  if_neg (mt MicChannel.completesCell_iff.1 (not_le.2 short))

theorem MicChannel.waitingAfter_of_short {x : BitVec 16} {before : Option MicCell} (short : c.staging.length < 63) :
    c.waitingAfter x before = before := if_neg (mt MicChannel.completesCell_iff.1 (not_le.2 short))

/-- Staging leaves the hop counter, the request and the count of those dropped. -/
theorem MicChannel.staged_others (occupied : Bool) (x : BitVec 16) (c : MicChannel) :
    (c.staged occupied x).hopCount = c.hopCount ∧ (c.staged occupied x).request = c.request ∧
      (c.staged occupied x).dropped = c.dropped := by
  unfold MicChannel.staged; split <;> exact ⟨rfl, rfl, rfl⟩

/-! ## A sample written (R95 to R97) -/

/-- A channel with its sample written, when `goes` says that it goes there. -/
def MicChannel.taken (goes : Bool) (stamp : Nat) (x : BitVec 16) (c : MicChannel) : MicChannel :=
  if goes then c.write stamp x else c

/-- The channel once the ring has the sample, before the request's age and the hop counter rise. -/
def MicChannel.stored (x : BitVec 16) (c : MicChannel) : MicChannel :=
  { c with ring := c.ring.set c.writePos (x.toInt / 16), writePos := (c.writePos + 1) % 640 }

theorem MicChannel.write_eq (stamp : Nat) (x : BitVec 16) (c : MicChannel) :
    c.write stamp x = ((c.stored x).ageRequest).countHop stamp := rfl

theorem MicChannel.ageRequest_of_none (empty : c.request = none) : c.ageRequest = c := by
  have young : c.expires = false := by simp [MicChannel.expires, empty]
  simp only [MicChannel.ageRequest, young, Bool.false_eq_true, if_false, empty, Option.map_none]
  rw [← empty]

theorem MicChannel.expires_iff : c.expires = true ↔ ∃ q, c.request = some q ∧ 239 ≤ q.age := by
  cases request : c.request with
  | none => simp [MicChannel.expires, request]
  | some q =>
    simp only [MicChannel.expires, request, Option.any_some, decide_eq_true_eq, Option.some.injEq, exists_eq_left']
    exact Nat.succ_le_succ_iff

theorem MicChannel.ageRequest_of_young {q : AnalysisRequest} (waiting : c.request = some q) (young : q.age < 239) :
    c.ageRequest = { c with request := some ⟨q.stamp, q.age + 1⟩ } := by
  have stays : ¬c.expires = true := by
    rw [MicChannel.expires_iff]
    rintro ⟨q', waiting', old⟩
    cases waiting'.symm.trans waiting
    omega
  simp only [MicChannel.ageRequest, if_neg stays, waiting, Option.map_some]

theorem MicChannel.ageRequest_of_old {q : AnalysisRequest} (waiting : c.request = some q) (old : 239 ≤ q.age) :
    c.ageRequest = { c with request := none, dropped := satInc c.dropped } :=
  if_pos (MicChannel.expires_iff.2 ⟨q, waiting, old⟩)

theorem MicChannel.hops_iff : c.hops = true ↔ 319 ≤ c.hopCount := by
  simp only [MicChannel.hops, decide_eq_true_eq]
  exact Nat.succ_le_succ_iff

theorem MicChannel.countHop_of_short {stamp : Nat} (short : c.hopCount < 319) :
    c.countHop stamp = { c with hopCount := c.hopCount + 1 } := if_neg (mt MicChannel.hops_iff.1 (not_le.2 short))

theorem MicChannel.countHop_of_last {stamp : Nat} (last : 319 ≤ c.hopCount) :
    c.countHop stamp = { c with hopCount := 0, request := some ⟨stamp, 0⟩ } := if_pos (MicChannel.hops_iff.2 last)

end

theorem State.write_eq (s : State) (r : RoomId) (m : Mic) (x : BitVec 16) :
    s.write r m x =
      s.setRoom r { s.room r with
        mics := (s.room r).mics.set m
          (((s.room r).mics.get m).taken (s.writes r m) (s.room r).timeline.clock x) } := by
  unfold State.write MicChannel.taken
  split
  next => rw [State.modChannel_channelOf]
  next => rw [PerMic.set_get, State.setRoom_room]

theorem State.writes_iff {s : State} {r : RoomId} {m : Mic} :
    s.writes r m = true ↔
      (s.room r).phase = .playing ∧ (s.room r).settings.micParts.get m ≠ .none ∧ s.engine.table.isSome = true := by
  simp [State.writes, and_assoc]

/-! ## A sample pair (R92) -/

/-- A room's channel once a sample pair has been staged and, where it goes there, written. -/
def State.tookSample (s : State) (r : RoomId) (m : Mic) (x : BitVec 16) : MicChannel :=
  (((s.room r).mics.get m).staged (s.link.micWaiting.get (channelOf r m)).isSome x).taken (s.writes r m)
    (s.room r).timeline.clock x

/-- Its waiting slot then. -/
def State.micAfter (s : State) (r : RoomId) (m : Mic) (x : BitVec 16) : Option MicCell :=
  ((s.room r).mics.get m).waitingAfter x (s.link.micWaiting.get (channelOf r m))

theorem State.staged_eq (s : State) (r : RoomId) (x1 x2 : BitVec 16) :
    s.staged r x1 x2 =
      { s.setRoom r { s.room r with mics :=
          ⟨(s.room r).mics.one.staged (s.link.micWaiting.get (channelOf r .mic1)).isSome x1,
            (s.room r).mics.two.staged (s.link.micWaiting.get (channelOf r .mic2)).isSome x2⟩ } with
        link := { s.link with
          micWaiting := (s.link.micWaiting.set (channelOf r .mic1) (s.micAfter r .mic1 x1)).set (channelOf r .mic2)
            (s.micAfter r .mic2 x2) } } := by
  have other (v : Vector (Option MicCell) 8) (y : Option MicCell) :
      (v.set (channelOf r .mic1) y).get (channelOf r .mic2) = v.get (channelOf r .mic2) :=
    Vector.get_set_of_ne _ (channelOf_mic_ne r) _
  simp only [State.staged, State.stage_eq, State.room_setRoom_self, State.room_mk_rooms, other, State.micAfter]
  simp only [State.setRoom, Vector.set_set]
  rfl

theorem State.written_eq (s : State) (r : RoomId) (x1 x2 : BitVec 16) :
    s.written r x1 x2 =
      { s.setRoom r { s.room r with mics := ⟨s.tookSample r .mic1 x1, s.tookSample r .mic2 x2⟩ } with
        link := { s.link with
          micWaiting := (s.link.micWaiting.set (channelOf r .mic1) (s.micAfter r .mic1 x1)).set (channelOf r .mic2)
            (s.micAfter r .mic2 x2) } } := by
  have same (m : Mic) : (s.staged r x1 x2).writes r m = s.writes r m :=
    (s.onMics_staged r x1 x2).writes (s.staged_engine r x1 x2) r m
  have next : ((s.staged r x1 x2).write r .mic1 x1).writes r .mic2 = s.writes r .mic2 :=
    ((State.onMics_write _ r .mic1 x1).writes (State.write_engine ..) r .mic2).trans (same .mic2)
  rw [State.written, State.write_eq ((s.staged r x1 x2).write r .mic1 x1), next, State.write_eq, same, State.staged_eq]
  simp only [State.room_setRoom_self, State.room_mk_rooms, State.setRoom_setRoom]
  simp only [State.setRoom, Vector.set_set]
  rfl

section

variable {s : State} {r : RoomId} {x1 x2 : BitVec 16}

theorem exec_samplePair (released : s.link.resetLine = false) :
    exec (.samplePair r x1 x2) s = .next (s.samplePair r x1 x2).startUplink := by
  refine congrArg finish ?_
  rw [State.unlessReset, released]
  rfl

theorem State.hopsOn_iff {m : Mic} :
    s.hopsOn r m = true ↔ s.writes r m = true ∧ 319 ≤ ((s.room r).mics.get m).hopCount := by
  rw [State.hopsOn, Bool.and_eq_true, MicChannel.hops_iff]

theorem State.anyHop_iff :
    (s.hopsOn r .mic1 || s.hopsOn r .mic2) = true ↔ ∃ m, s.writes r m = true ∧ 319 ≤ ((s.room r).mics.get m).hopCount := by
  rw [Bool.or_eq_true, State.hopsOn_iff, State.hopsOn_iff]
  refine ⟨fun either => either.elim (⟨_, ·⟩) (⟨_, ·⟩), ?_⟩
  rintro ⟨m, hop⟩
  cases m
  · exact .inl hop
  · exact .inr hop

/-! ## The arbiter (R100) -/

/-- The arbiter leaves the link, and of a channel all but its request. -/
theorem State.arbitrate_link : s.arbitrate.link = s.link := by
  unfold State.arbitrate
  split
  next c _ next =>
    obtain ⟨q, waiting⟩ := State.request_of_nextWaiting next
    rw [State.startOn_eq waiting]
    rfl
  next => rfl

theorem State.arbitrate_channel (s : State) (d : Channel) :
    s.arbitrate.channel d = s.channel d ∨ s.arbitrate.channel d = { s.channel d with request := none } := by
  unfold State.arbitrate
  split
  next c _ next =>
    obtain ⟨q, waiting⟩ := State.request_of_nextWaiting next
    rw [State.startOn_eq waiting]
    have set (e : Engine) (t : State) : ({ t with engine := e } : State).channel d = t.channel d := rfl
    rw [set, State.channel_modChannel]
    split
    next same => subst same; exact .inr rfl
    next => exact .inl rfl
  next => exact .inl rfl

theorem State.arbitrate_idle (idle : s.engine.current.isSome = true ∨ ∀ c : Channel, (s.channel c).request = none) :
    s.arbitrate = s := by
  unfold State.arbitrate
  split
  next c current next =>
    rcases idle with running | none
    · simp [current] at running
    · cases (State.nextWaiting_eq_none.2 none).symm.trans next
  next => rfl

/-- The arbiter's order is by the distance from the channel last served. -/
theorem arbiterOrder_pairwise (last : Channel) :
    (arbiterOrder last).Pairwise fun c d => (c - last - 1).val < (d - last - 1).val := by
  decide +revert

/-- The first waiting channel after the one last served is chosen. -/
theorem State.nextWaiting_of_first {c : Channel} (waits : (s.channel c).request.isSome = true)
    (first : ∀ d, (s.channel d).request.isSome = true →
      (c - s.engine.lastServed - 1).val ≤ (d - s.engine.lastServed - 1).val) : s.nextWaiting = some c := by
  cases next : s.nextWaiting with
  | none => rw [State.nextWaiting_eq_none.1 next c] at waits; cases waits
  | some d =>
    obtain ⟨chosen, ahead, behind, order, passed⟩ := List.find?_eq_some_iff_append.1 next
    have ordered := arbiterOrder_pairwise s.engine.lastServed
    have member := mem_arbiterOrder s.engine.lastServed c
    rw [order] at ordered member
    rcases List.mem_append.1 member with before | after
    · exact absurd (passed c before) (by simp [waits])
    · rcases List.mem_cons.1 after with rfl | later
      · rfl
      · have nearer := (List.pairwise_cons.1 (List.pairwise_append.1 ordered).2.1).1 c later
        exact absurd (first d chosen) (not_le.2 nearer)

/-- The window of a request runs forward from 400 cells and its age behind the write position (R96). -/
theorem MicChannel.getD_window {c : MicChannel} {age : Nat} (ring : c.ring.length = 640) (position : c.writePos < 640)
    (young : age < 240) {i : Nat} (within : i < 400) :
    (c.window age).getD i 0 = c.ring.getD ((c.writePos + 880 - age + i) % 640) 0 := by
  have rotated : c.window age = (c.ring.rotate ((c.writePos + 880 - age) % 640)).take 400 := by
    have first : (c.writePos + 2 * Config.ringCells - Config.windowSamples - age) % Config.ringCells =
        (c.writePos + 880 - age) % 640 := by
      simp only [Config.ringCells, Config.windowSamples]; omega
    have most : (c.writePos + 880 - age) % 640 ≤ c.ring.length := by rw [ring]; omega
    rw [MicChannel.window, first, ← List.rotate_eq_drop_append_take most, Config.windowSamples]
  have here : i < (c.ring.rotate ((c.writePos + 880 - age) % 640)).length := by
    rw [List.length_rotate, ring]; omega
  have there : (c.writePos + 880 - age + i) % 640 < c.ring.length := by
    rw [ring]; exact Nat.mod_lt _ (by decide)
  rw [rotated, List.getD_eq_getElem _ _ (by rw [List.length_take]; omega), List.getElem_take, List.getElem_rotate,
    List.getD_eq_getElem _ _ there]
  congr 1
  rw [ring]; omega

/-! ## What a sample pair leaves -/

theorem State.written_mic (m : Mic) :
    ((s.written r x1 x2).room r).mics.get m = s.tookSample r m ((⟨x1, x2⟩ : PerMic (BitVec 16)).get m) := by
  rw [State.written_eq, State.room_mk_rooms, State.room_setRoom_self]
  cases m <;> rfl

theorem State.written_micWaiting (m : Mic) :
    (s.written r x1 x2).link.micWaiting.get (channelOf r m) = s.micAfter r m ((⟨x1, x2⟩ : PerMic (BitVec 16)).get m) := by
  rw [State.written_eq]
  cases m
  · exact (Vector.get_set_of_ne _ (channelOf_mic_ne r).symm _).trans (Vector.get_set_self ..)
  · exact Vector.get_set_self ..

/-- What a sample pair leaves of a channel stands after the arbiter too, but for a request that it takes. -/
theorem State.samplePair_mic (lit : (s.room r).phase ≠ .dark) (m : Mic) :
    ((s.samplePair r x1 x2).room r).mics.get m = ((s.written r x1 x2).room r).mics.get m ∨
      ((s.samplePair r x1 x2).room r).mics.get m =
        { ((s.written r x1 x2).room r).mics.get m with request := none } := by
  rw [State.samplePair_eq lit]
  split
  · simpa only [State.channel_channelOf] using (s.written r x1 x2).arbitrate_channel (channelOf r m)
  · exact .inl rfl

theorem State.samplePair_micWaiting (lit : (s.room r).phase ≠ .dark) :
    (s.samplePair r x1 x2).link.micWaiting = (s.written r x1 x2).link.micWaiting := by
  rw [State.samplePair_eq lit]
  split
  · rw [State.arbitrate_link]
  · rfl

end

/-! ## What a channel keeps of a sample written -/

/-- A sample written leaves the staging, the sequence and the count of cells lost. -/
theorem MicChannel.taken_eq (goes : Bool) (stamp : Nat) (x : BitVec 16) (c : MicChannel) :
    (c.taken goes stamp x).staging = c.staging ∧ (c.taken goes stamp x).sequence = c.sequence ∧
      (c.taken goes stamp x).lost = c.lost := by
  unfold MicChannel.taken
  split
  · unfold MicChannel.write MicChannel.countHop MicChannel.ageRequest
    split <;> split <;> exact ⟨rfl, rfl, rfl⟩
  · exact ⟨rfl, rfl, rfl⟩

/-- A sample that brings the request to its greatest age counts it, and leaves a request only at a hop. -/
theorem MicChannel.write_of_old {c : MicChannel} {q : AnalysisRequest} (waiting : c.request = some q) (old : 239 ≤ q.age)
    (stamp : Nat) (x : BitVec 16) :
    (c.write stamp x).dropped = satInc c.dropped ∧ (c.hopCount < 319 → (c.write stamp x).request = none) := by
  rw [MicChannel.write_eq, MicChannel.ageRequest_of_old (c := c.stored x) waiting old]
  refine ⟨?_, fun short => ?_⟩
  · unfold MicChannel.countHop; split <;> rfl
  · rw [MicChannel.countHop_of_short (c := { c.stored x with request := none, dropped := satInc (c.stored x).dropped }) short]

/-- A sample that completes the hop raises a request of age 0 and starts the counter again. -/
theorem MicChannel.write_of_last {c : MicChannel} (last : 319 ≤ c.hopCount) (stamp : Nat) (x : BitVec 16) :
    (c.write stamp x).hopCount = 0 ∧ (c.write stamp x).request = some ⟨stamp, 0⟩ := by
  have hops : ((c.stored x).ageRequest).hopCount = c.hopCount := MicChannel.ageRequest_hopCount _
  rw [MicChannel.write_eq, MicChannel.countHop_of_last (hops ▸ last)]
  exact ⟨rfl, rfl⟩

theorem State.arrivalWhen_of_due {due : State → Bool} {r : RoomId} {x1 x2 : BitVec 16} {s : State} (now : due s = true) :
    s.arrivalWhen due r x1 x2 = s.samplePair r x1 x2 := if_pos now

theorem State.arrivalWhen_of_not {due : State → Bool} {r : RoomId} {x1 x2 : BitVec 16} {s : State} (never : ¬due s = true) :
    s.arrivalWhen due r x1 x2 = s := if_neg never

/-! ## The obligations -/

/-- The channel as the clauses of a sample written give it (R95 to R97). -/
theorem MicChannel.eq_write {stamp : Nat} {x : BitVec 16} {c aged taken : MicChannel}
    (ages : ∀ d : MicChannel,
      d = { c with ring := c.ring.set c.writePos (x.toInt / 16), writePos := (c.writePos + 1) % 640 } →
      (c.request = none → aged = d) ∧
      ∀ q, c.request = some q →
        (q.age < 239 → aged = { d with request := some ⟨q.stamp, q.age + 1⟩ }) ∧
        (239 ≤ q.age → aged = { d with request := none, dropped := satInc c.dropped }))
    (short : c.hopCount < 319 → taken = { aged with hopCount := c.hopCount + 1 })
    (last : 319 ≤ c.hopCount → taken = { aged with hopCount := 0, request := some ⟨stamp, 0⟩ }) :
    taken = c.write stamp x := by
  obtain ⟨empty, waiting⟩ := ages (c.stored x) rfl
  have older : aged = (c.stored x).ageRequest := by
    cases request : c.request with
    | none => rw [empty request, MicChannel.ageRequest_of_none (c := c.stored x) request]
    | some q =>
      obtain ⟨young, old⟩ := waiting q request
      rcases lt_or_ge q.age 239 with less | more
      · rw [young less, MicChannel.ageRequest_of_young (c := c.stored x) request less]
      · rw [old more, MicChannel.ageRequest_of_old (c := c.stored x) request more]; rfl
  have hops : aged.hopCount = c.hopCount := by rw [older, MicChannel.ageRequest_hopCount]; rfl
  rw [MicChannel.write_eq, ← older]
  rcases lt_or_ge c.hopCount 319 with less | more
  · rw [short less, MicChannel.countHop_of_short (hops ▸ less), hops]
  · rw [last more, MicChannel.countHop_of_last (hops ▸ more)]

/-- Settles O44, by what each channel takes of the pair and by whether it completes a hop. -/
theorem samplePairStagedAndWritten : Obligations.SamplePairStagedAndWritten := by
  intro s r x1 x2
  refine ⟨fun idle => ?_, ?_⟩
  · refine congrArg finish ?_
    rcases idle with asserted | dark
    · rw [State.unlessReset, asserted]; rfl
    · have discarded : s.samplePair r x1 x2 = s := if_pos dark
      rw [discarded, State.unlessReset, ite_self]
  rintro released lit sample waiting writes staged aged taken u rfl rfl staging writing rfl
  have stages (m : Mic) (x : BitVec 16) (same : (match m with | .mic1 => x1 | .mic2 => x2) = x) :
      staged m = ((s.room r).mics.get m).staged (s.link.micWaiting.get (channelOf r m)).isSome x ∧
        waiting m = s.micAfter r m x := by
    subst same
    obtain ⟨short, last⟩ := staging m _ rfl
    rcases lt_or_ge ((s.room r).mics.get m).staging.length 63 with less | more
    · rw [MicChannel.staged_of_short less, State.micAfter, MicChannel.waitingAfter_of_short less]
      exact short less
    · rw [MicChannel.staged_of_last more, State.micAfter, MicChannel.waitingAfter_of_last more]
      exact last more
  have takes (m : Mic) (x : BitVec 16) (same : (match m with | .mic1 => x1 | .mic2 => x2) = x) :
      taken m = s.tookSample r m x := by
    have stage := (stages m x same).1
    subst same
    obtain ⟨elsewhere, there⟩ := writing m _ rfl
    rw [State.tookSample, ← stage]
    by_cases goes : s.writes r m = true
    · obtain ⟨ages, short, last⟩ := there (State.writes_iff.1 goes)
      rw [goes]
      exact MicChannel.eq_write ages short last
    · rw [MicChannel.taken, if_neg goes]
      exact elsewhere (mt State.writes_iff.2 goes)
  rw [exec_samplePair released, State.samplePair_eq lit, takes .mic1 x1 rfl, takes .mic2 x2 rfl, (stages .mic1 x1 rfl).2,
    (stages .mic2 x2 rfl).2, ← State.written_eq]
  refine ⟨fun short => ?_, fun ⟨m, goes, last⟩ => ?_⟩
  · rw [if_neg]
    rw [State.anyHop_iff]
    rintro ⟨m, goes, last⟩
    exact absurd (short m (State.writes_iff.1 goes)) (not_lt.2 last)
  · rw [if_pos (State.anyHop_iff.2 ⟨m, State.writes_iff.2 goes, last⟩)]

/-- Settles O45, by whether the pair completes the channel's cell and by whether it expires its request. -/
theorem micCellsCompleteAndRequestsExpire : Obligations.MicCellsCompleteAndRequestsExpire := by
  rintro s r m c x1 x2 rfl
  have completes : (s.channel (channelOf r m)).completesCell = true ↔ 63 ≤ ((s.room r).mics.get m).staging.length := by
    rw [State.channel_channelOf, MicChannel.completesCell_iff]
  have expires : s.expiresOn (roomOf (channelOf r m)) (micOf (channelOf r m)) = true ↔
      s.writes r m = true ∧ ∃ q, ((s.room r).mics.get m).request = some q ∧ 239 ≤ q.age := by
    rw [roomOf_channelOf, micOf_channelOf, State.expiresOn, Bool.and_eq_true, MicChannel.expires_iff]
  have written := s.written_mic (r := r) (x1 := x1) (x2 := x2) m
  refine ⟨fun idle => congrArg finish ?_, fun released lit last => ?_, fun idle => congrArg finish ?_, ?_⟩
  · rcases idle with asserted | dark | short
    · exact State.unlessReset_of_asserted asserted _
    · have discarded : s.samplePair r x1 x2 = s := if_pos dark
      rw [State.unlessReset, roomOf_channelOf, State.arrivalWhen, discarded, ite_self, ite_self]
    · rw [State.arrivalWhen_of_not (mt completes.1 (not_le.2 short)), State.unlessReset, ite_self]
  · refine ⟨s.samplePair r x1 x2, congrArg finish ?_, exec_samplePair released, ?_, ?_⟩
    · rw [State.arrivalWhen_of_due (completes.2 last), State.unlessReset, released, roomOf_channelOf]; rfl
    · rw [State.samplePair_micWaiting lit, State.written_micWaiting, State.micAfter, MicChannel.waitingAfter_of_last last]
      cases m <;> rfl
    · have stays := MicChannel.taken_eq (s.writes r m) (s.room r).timeline.clock
        ((⟨x1, x2⟩ : PerMic (BitVec 16)).get m)
        (((s.room r).mics.get m).nextCell (s.link.micWaiting.get (channelOf r m)).isSome)
      rw [State.tookSample, MicChannel.staged_of_last last] at written
      rw [← written] at stays
      rcases s.samplePair_mic (x1 := x1) (x2 := x2) lit m with same | same <;> rw [same] <;> exact stays
  · rcases idle with asserted | others
    · exact State.unlessReset_of_asserted asserted _
    · rw [State.arrivalWhen_of_not, State.unlessReset, ite_self]
      rw [expires, State.writes_iff]
      rintro ⟨⟨playing, part, table⟩, q, waiting, old⟩
      rcases others with idle | none | unloaded | young
      · exact idle playing
      · exact part none
      · simp [unloaded] at table
      · exact absurd (young q waiting) (not_lt.2 old)
  · intro q released playing part table waiting old
    have lit : (s.room r).phase ≠ .dark := by simp [playing]
    have goes := State.writes_iff.2 ⟨playing, part, table⟩
    refine ⟨s.samplePair r x1 x2, congrArg finish ?_, exec_samplePair released, ?_⟩
    · rw [State.arrivalWhen_of_due (expires.2 ⟨goes, q, waiting, old⟩), State.unlessReset, released, roomOf_channelOf]; rfl
    · obtain ⟨hops, request, dropped⟩ :=
        ((s.room r).mics.get m).staged_others (s.link.micWaiting.get (channelOf r m)).isSome
          ((⟨x1, x2⟩ : PerMic (BitVec 16)).get m)
      obtain ⟨counted, empty⟩ := MicChannel.write_of_old (request.trans waiting) old (s.room r).timeline.clock
        ((⟨x1, x2⟩ : PerMic (BitVec 16)).get m)
      rw [hops] at empty
      rw [dropped] at counted
      rw [State.tookSample, goes, MicChannel.taken, if_pos rfl] at written
      rw [← written] at counted empty
      rcases s.samplePair_mic (x1 := x1) (x2 := x2) lit m with same | same <;> rw [same]
      · exact ⟨empty, counted⟩
      · exact ⟨fun _ => rfl, counted⟩

/-- Settles O46, by whether the pair completes a hop, and by the first waiting channel and its window. -/
theorem hopsRaiseRequests : Obligations.HopsRaiseRequests := by
  refine ⟨?_, fun s => ⟨State.arbitrate_idle, ?_⟩⟩
  · rintro s r x1 x2 hops rfl
    have anyHop : (s.hopsOn r .mic1 || s.hopsOn r .mic2) = true ↔
        ∃ m, (s.room r).phase = .playing ∧ (s.room r).settings.micParts.get m ≠ .none ∧
          s.engine.table.isSome = true ∧ 319 ≤ ((s.room r).mics.get m).hopCount := by
      simp only [State.anyHop_iff, State.writes_iff, and_assoc]
    refine ⟨fun idle => congrArg finish ?_, fun released any => ?_⟩
    · rcases idle with asserted | none
      · exact State.unlessReset_of_asserted asserted _
      · rw [State.arrivalWhen_of_not (mt anyHop.1 (not_exists.2 none)), State.unlessReset, ite_self]
    · have lit : (s.room r).phase ≠ .dark := by
        obtain ⟨m, playing, -⟩ := any
        simp [playing]
      have taken : s.samplePair r x1 x2 = (s.written r x1 x2).arbitrate := by
        rw [State.samplePair_eq lit, if_pos (anyHop.2 any)]
      refine ⟨s.written r x1 x2, congrArg finish ?_, taken ▸ exec_samplePair released, ?_⟩
      · rw [State.arrivalWhen_of_due (anyHop.2 any), State.unlessReset, released, taken]; rfl
      · rintro m ⟨playing, part, table, last⟩
        obtain ⟨hops, -, -⟩ :=
          ((s.room r).mics.get m).staged_others (s.link.micWaiting.get (channelOf r m)).isSome
            ((⟨x1, x2⟩ : PerMic (BitVec 16)).get m)
        rw [State.written_mic, State.tookSample, State.writes_iff.2 ⟨playing, part, table⟩, MicChannel.taken, if_pos rfl]
        exact MicChannel.write_of_last (hops.symm ▸ last) ..
  · rintro r m c q idle rfl waiting first
    have here : (s.channel (channelOf r m)).request = some q := by rw [State.channel_channelOf, waiting]
    have next : s.nextWaiting = some (channelOf r m) := State.nextWaiting_of_first (by rw [here]; rfl) first
    refine ⟨((s.room r).mics.get m).window q.age, ?_, fun ring position young => ⟨?_, fun i => ?_⟩⟩
    · simp only [State.arbitrate, idle, next]
      rw [State.startOn_eq here, State.modChannel_channelOf, State.channel_channelOf]
    · exact MicChannel.length_window ring _
    · exact MicChannel.getD_window ring position young

end Sys2Proof.Machine
end

section
/-! SUPPORT. The pitch computation read from its definitions (R102 to R106), the lookup of a period in a table whose cells
follow one another downward (R107 to R109), and the completion of an analysis (R101). -/

namespace Sys2Proof.Machine

/-! ## Energy and differences (R102, R103) -/

theorem energy_eq {w : List Int} (whole : w.length = 400) :
    energy w = ((List.range 200).map fun i => (w.getD i 0).natAbs).sum := by
  refine congrArg List.sum (List.ext_getElem (by simp [frameSamples, whole]) fun i left right => ?_)
  have here : i < w.length := by simp at right; omega
  simp [here]

theorem difference_eq {w : List Int} (whole : w.length = 400) {lag : Nat} (most : lag ≤ 200) :
    difference w lag = ((List.range 200).map fun i => (w.getD i 0 - w.getD (i + lag) 0).natAbs).sum := by
  refine congrArg List.sum (List.ext_getElem ?_ fun i left right => ?_)
  · simp only [List.length_zipWith, List.length_take, List.length_drop, List.length_map, List.length_range, frameSamples, whole]
    omega
  · have frame : i < 200 := by simpa using right
    have here : i < w.length := by omega
    have there : i + lag < w.length := by omega
    simp [here, there, Nat.add_comm lag]

theorem getD_differences {w : List Int} {l : Nat} (low : 15 ≤ l) (high : l ≤ 200) :
    (differences w).getD (l - 15) 0 = difference w l := by
  have place : l - 15 < 186 := by omega
  have lag : lagMin + (l - 15) = l := by simp only [lagMin]; omega
  rw [differences, List.getD_eq_getElem _ _ (by rw [List.length_map, List.length_range]; exact place), List.getElem_map,
    List.getElem_range, lag]

/-! ## The least difference -/

theorem leastOf_le {ds : List Nat} {d : Nat} (member : d ∈ ds) : leastOf ds ≤ d := by
  induction ds using leastOf.induct with
  | case1 => cases member
  | case2 x => rw [List.mem_singleton.1 member]; exact le_rfl
  | case3 x xs more ih =>
    rw [leastOf.eq_3 _ _ more]
    rcases List.mem_cons.1 member with rfl | later
    · exact min_le_left ..
    · exact (min_le_right ..).trans (ih later)

theorem leastOf_mem {ds : List Nat} (some : ds ≠ []) : leastOf ds ∈ ds := by
  induction ds using leastOf.induct with
  | case1 => exact absurd rfl some
  | case2 x => exact List.mem_singleton_self x
  | case3 x xs more ih =>
    rw [leastOf.eq_3 _ _ more]
    rcases min_choice x (leastOf xs) with least | least <;> rw [least]
    · exact List.mem_cons_self
    · exact List.mem_cons_of_mem _ (ih more)

theorem leastOf_eq {ds : List Nat} {d : Nat} (member : d ∈ ds) (least : ∀ x ∈ ds, d ≤ x) : leastOf ds = d :=
  (leastOf_le member).antisymm (least _ (leastOf_mem (List.ne_nil_of_mem member)))

section

variable {w : List Int} {lag : Nat} (low : 15 ≤ lag) (high : lag ≤ 200)

include low high

theorem leastOf_differences (least : ∀ l, 15 ≤ l → l ≤ 200 → difference w lag ≤ difference w l) :
    leastOf (differences w) = difference w lag := by
  refine leastOf_eq (List.mem_map.2 ⟨lag - 15, List.mem_range.2 (by simp only [lagCount]; omega), ?_⟩) fun x member => ?_
  · rw [lagMin, Nat.add_sub_cancel' low]
  · obtain ⟨i, range, rfl⟩ := List.mem_map.1 member
    have within := List.mem_range.1 range
    exact least _ (Nat.le_add_right ..) (by simp only [lagCount] at within; simp only [lagMin]; omega)

/-- The smallest lag that attains the least difference is the one chosen (R103). -/
theorem leastIndex_differences (least : ∀ l, 15 ≤ l → l ≤ 200 → difference w lag ≤ difference w l)
    (smallest : ∀ l, 15 ≤ l → l < lag → difference w lag < difference w l) :
    leastIndex (differences w) = lag - 15 := by
  have place : lag - 15 < (differences w).length := by
    rw [differences, List.length_map, List.length_range, lagCount]; omega
  have value (i : Nat) (within : i < (differences w).length) : (differences w)[i] = difference w (15 + i) := by
    simp only [differences, List.getElem_map, List.getElem_range, lagMin]
  rw [leastIndex, List.findIdx_eq place, leastOf_differences low high least]
  refine ⟨by rw [value, Nat.add_sub_cancel' low]; exact decide_eq_true rfl, fun j before => ?_⟩
  rw [value]
  exact decide_eq_false (smallest _ (Nat.le_add_right ..) (by omega)).ne'

/-! ## The refined period (R105, R106) -/

theorem refinedPeriod_differences (least : ∀ l, 15 ≤ l → l ≤ 200 → difference w lag ≤ difference w l)
    (smallest : ∀ l, 15 ≤ l → l < lag → difference w lag < difference w l) :
    refinedPeriod (differences w) =
      (16 * (lag : Int) + if lag = 15 ∨ lag = 200 then 0
        else refineOffset (difference w (lag - 1)) (difference w lag) (difference w (lag + 1))).toNat := by
  have index := leastIndex_differences low high least smallest
  have ends : (lag - 15 = 0 ∨ lag - 15 + 1 = lagCount) ↔ (lag = 15 ∨ lag = 200) := by simp only [lagCount]; omega
  have place : lagMin + (lag - 15) = lag := by simp only [lagMin]; omega
  simp only [refinedPeriod, index, ends, place]
  split
  next => rfl
  next inner =>
    have before : lag - 15 - 1 = lag - 1 - 15 := by omega
    have after : lag - 15 + 1 = lag + 1 - 15 := by omega
    rw [before, after, getD_differences (by omega) (by omega), getD_differences low high,
      getD_differences (by omega) (by omega)]

end

/-! ## Voicing (R104) -/

theorem voiced_iff {t : Settings} {e least : Nat} :
    voiced t e least = true ↔ t.silenceThreshold ≤ e ∧ 16 * least ≤ t.voicingFactor * e := by
  rw [voiced, Bool.and_eq_true, decide_eq_true_eq, decide_eq_true_eq]

theorem computeWindow_of_voiced {t : Settings} {w : List Int}
    (passes : voiced t (energy w) (leastOf (differences w)) = true) :
    computeWindow t w = ⟨energy w, differences w, some (refinedPeriod (differences w))⟩ := by
  simp only [computeWindow, passes, if_true]

theorem period_of_unvoiced {t : Settings} {w : List Int}
    (fails : ¬voiced t (energy w) (leastOf (differences w)) = true) : (computeWindow t w).period = none := if_neg fails

/-- The offset is the quotient rounded to the nearest, halves away from zero, within −8..8 (R105). -/
theorem refineOffset_eq (a b c : Int) :
    refineOffset a b c =
      if a - 2 * b + c ≤ 0 then 0
      else max (-8) (min 8 (if 0 ≤ 8 * (a - c) then (2 * (8 * (a - c)) + (a - 2 * b + c)) / (2 * (a - 2 * b + c))
        else -((2 * (-(8 * (a - c))) + (a - 2 * b + c)) / (2 * (a - 2 * b + c))))) := by
  simp only [refineOffset]
  split
  next => rfl
  next positive =>
    have clamp (x : Int) : clampInt (-8) 8 x = max (-8) (min 8 x) := by simp only [clampInt]; omega
    rw [clamp]
    congr 2
    generalize 8 * (a - c) = num
    generalize a - 2 * b + c = den at positive ⊢
    rcases lt_trichotomy num 0 with negative | rfl | above
    · rw [if_neg (not_le.2 negative), Int.sign_eq_neg_one_of_neg negative, Int.ofNat_natAbs_of_nonpos negative.le, neg_one_mul]
    · have half : den / (2 * den) = 0 := Int.ediv_eq_zero_of_lt (by omega) (by omega)
      simp [half]
    · rw [if_pos above.le, Int.sign_eq_one_of_pos above, Int.natAbs_of_nonneg above.le, one_mul]

/-! ## The lookup (R107 to R109) -/

theorem le_of_cellsInRange {cells : List PitchCell} (range : cellsInRange cells = true) {c : PitchCell} (member : c ∈ cells) :
    c.low ≤ c.high := by
  have own := List.all_eq_true.1 range c member
  simp only [Bool.and_eq_true, decide_eq_true_eq] at own
  exact own.1.2

/-- Cells that follow one another lie below one another. -/
theorem pairwise_of_cellsContiguous {cells : List PitchCell} (range : cellsInRange cells = true)
    (contiguous : cellsContiguous cells = true) : cells.Pairwise fun c d => d.high < c.low := by
  induction cells using cellsContiguous.induct with
  | case1 => exact .nil
  | case2 c => exact List.pairwise_singleton ..
  | case3 c d cs ih =>
    simp only [cellsContiguous, Bool.and_eq_true, decide_eq_true_eq] at contiguous
    obtain ⟨step, others⟩ := contiguous
    have tail : cellsInRange (d :: cs) = true := (Bool.and_eq_true_iff.1 range).2
    have ordered := le_of_cellsInRange tail List.mem_cons_self
    have below := ih tail others
    refine List.Pairwise.cons (fun e member => ?_) below
    rcases List.mem_cons.1 member with rfl | later
    · omega
    · have := (List.pairwise_cons.1 below).1 e later
      omega

/-- A period below every cell passed is looked up from the cells behind them. -/
theorem lookupFrom_append {lq : Nat} {passed : List PitchCell} (n : Nat) (cells : List PitchCell)
    (below : ∀ c ∈ passed, lq < c.low ∧ c.low ≤ c.high) :
    lookupFrom lq n (passed ++ cells) = lookupFrom lq (n + passed.length) cells := by
  induction passed generalizing n with
  | nil => rfl
  | cons c cs ih =>
    obtain ⟨less, ordered⟩ := below c List.mem_cons_self
    rw [List.cons_append, lookupFrom, if_neg (by omega), if_neg (by omega),
      ih _ fun d member => below d (List.mem_cons_of_mem _ member), List.length_cons, Nat.add_assoc, Nat.add_comm 1]

/-! ## The obligation -/

/-- A completing analysis that is not void (R101). -/
theorem exec_analysisComplete {s : State} {a : Analysis} (running : s.engine.current = some a) (valid : a.void = false) :
    exec .analysisComplete s = .next
      (({ s with
          engine := { s.engine with
            current := none, residue := some (computeWindow (s.room (roomOf a.channel)).settings a.window) }
          handed := s.handed ++ [HandOver.analysis ⟨a.channel, a.stamp,
            (computeWindow (s.room (roomOf a.channel)).settings a.window).period.map (lookupNote s.engine.table)⟩] }
        ).arbitrate).startUplink := by
  refine congrArg finish ?_
  simp only [State.analysisComplete, running, valid, Bool.false_eq_true, if_false]
  rfl

/-- Settles O47, by the frame's energy and differences read as sums, by the voicing test, and by the place of a period
among cells that follow one another downward. -/
theorem analysisCompletes : Obligations.AnalysisCompletes := by
  refine ⟨fun s idle => congrArg finish ?_, fun s a running void => congrArg finish ?_, ?_, ?_⟩
  · simp only [State.analysisComplete, idle]
  · simp only [State.analysisComplete, running, void, if_true]
  · rintro s a y d e lag t running valid whole a' b' c' den num offset sample settings sum sums low high least smallest atA atB
      atC atDen atNum atOffset
    have total : e = energy a.window := by rw [energy_eq whole, sum, sample]
    have each (l : Nat) (most : l ≤ 200) : d l = difference a.window l := by rw [difference_eq whole most, sums, sample]
    clear sum sums sample
    subst settings atA atB atC atDen atNum total
    have least : ∀ l, 15 ≤ l → l ≤ 200 → difference a.window lag ≤ difference a.window l := fun l above below => by
      simpa only [each lag high, each l below] using least l above below
    have smallest : ∀ l, 15 ≤ l → l < lag → difference a.window lag < difference a.window l := fun l above below => by
      simpa only [each lag high, each l (by omega)] using smallest l above below
    have period : refinedPeriod (differences a.window) = (16 * (lag : Int) + offset).toNat := by
      rw [refinedPeriod_differences low high least smallest, atOffset]
      by_cases ends : lag = 15 ∨ lag = 200
      · rw [if_pos ends, if_pos (ends.imp id Or.inl)]
      · rw [if_neg ends, refineOffset_eq, each (lag - 1) (by omega), each lag high, each (lag + 1) (by omega)]
        simp only [← or_assoc, ends, false_or]
    have bottom : leastOf (differences a.window) = difference a.window lag := leastOf_differences low high least
    have lags : (List.range 186).map (fun i => d (15 + i)) = differences a.window := by
      refine List.map_congr_left fun i range => each _ ?_
      have within := List.mem_range.1 range
      omega
    refine ⟨_, _, exec_analysisComplete running valid, fun unvoiced => ?_, fun loud close => ?_⟩
    · have fails : ¬voiced (s.room (roomOf a.channel)).settings (energy a.window) (leastOf (differences a.window)) = true := by
        rw [voiced_iff, bottom, ← each lag high]
        omega
      rw [period_of_unvoiced fails]
      rfl
    · have passes : voiced (s.room (roomOf a.channel)).settings (energy a.window) (leastOf (differences a.window)) = true := by
        rw [voiced_iff, bottom, ← each lag high]
        exact ⟨loud, close⟩
      rw [lags, computeWindow_of_voiced passes, period]
      exact ⟨rfl, rfl⟩
  · intro cells lq length range contiguous
    have ordered := pairwise_of_cellsContiguous range contiguous
    have own (c : PitchCell) (member : c ∈ cells) := le_of_cellsInRange range member
    have getD (i : Nat) (within : i < 45) : cells.getD i ⟨0, 0⟩ = cells[i] := List.getD_eq_getElem _ _ (length ▸ within)
    refine ⟨fun above => ?_, fun below => ?_, fun i within low high => ?_⟩
    · obtain ⟨c, cs, rfl⟩ := List.exists_cons_of_ne_nil (List.ne_nil_of_length_pos (length ▸ (by decide : 0 < 45)))
      exact if_pos above
    · have every : ∀ c ∈ cells, lq < c.low ∧ c.low ≤ c.high := by
        intro c member
        refine ⟨?_, own c member⟩
        obtain ⟨j, inside, rfl⟩ := List.getElem_of_mem member
        rw [getD 44 (by decide)] at below
        rcases Nat.lt_or_ge j 44 with before | last
        · have := List.pairwise_iff_getElem.1 ordered j 44 inside (by omega) before
          have := own _ (List.getElem_mem (l := cells) (n := 44) (by omega))
          omega
        · have here : j = 44 := by omega
          subst here
          exact below
      have passed := lookupFrom_append 40 [] every
      rw [List.append_nil] at passed
      exact passed
    · rw [getD i within] at low high
      have split : cells = cells.take i ++ cells[i] :: cells.drop (i + 1) := by simp
      have every : ∀ c ∈ cells.take i, lq < c.low ∧ c.low ≤ c.high := by
        intro c member
        refine ⟨?_, own c (List.mem_of_mem_take member)⟩
        obtain ⟨j, inside, rfl⟩ := List.getElem_of_mem member
        rw [List.length_take] at inside
        have := List.pairwise_iff_getElem.1 ordered j i (by omega) (by omega) (by omega)
        rw [List.getElem_take]
        omega
      have count : (cells.take i).length = i := by rw [List.length_take]; omega
      show lookupFrom lq 40 cells = _
      rw [split, lookupFrom_append 40 _ every, lookupFrom, if_neg (not_lt.2 high), if_pos low, count]

end Sys2Proof.Machine
end

section
/-! SUPPORT. An analysis result taken by the score unit (R118 to R125): whose note holds its stamp, the verdict that the
note's slot takes, and the counters then. -/

namespace Sys2Proof.Machine

/-! ## The note that holds a stamp (R119) -/

theorem Part.belongsTo_iff {p : Part} {part : MicPart} :
    p.belongsTo part = true ↔ part = .a ∧ (p = .a ∨ p = .both) ∨ part = .b ∧ (p = .b ∨ p = .both) := by
  cases p <;> cases part <;> decide

theorem Note.holds_iff {part : MicPart} {stamp : Nat} {n : Note} :
    n.holds part stamp = true ↔ n.start ≤ stamp ∧ stamp < n.stop ∧
      (part = .a ∧ (n.part = .a ∨ n.part = .both) ∨ part = .b ∧ (n.part = .b ∨ n.part = .both)) := by
  rw [Note.holds, Bool.and_eq_true, Bool.and_eq_true, decide_eq_true_eq, decide_eq_true_eq, Part.belongsTo_iff]
  exact ⟨fun ⟨⟨own, from_⟩, to_⟩ => ⟨from_, to_, own⟩, fun ⟨from_, to_, own⟩ => ⟨⟨own, from_⟩, to_⟩⟩

section

variable {part : MicPart} {stamp : Nat} {before : List Note} (passed : ∀ k ∈ before, ¬k.holds part stamp = true)

include passed

theorem updateHolding_append (f : Note → Note) (ns : List Note) :
    updateHolding part stamp f (before ++ ns) = before ++ updateHolding part stamp f ns := by
  induction before with
  | nil => rfl
  | cons k ks ih =>
    rw [List.cons_append, updateHolding, if_neg (passed k List.mem_cons_self),
      ih fun j member => passed j (List.mem_cons_of_mem _ member), List.cons_append]

theorem updateHolding_of_first {n : Note} (holds : n.holds part stamp = true) (f : Note → Note) (after : List Note) :
    updateHolding part stamp f (before ++ n :: after) = before ++ f n :: after := by
  rw [updateHolding_append passed, updateHolding, if_pos holds]

theorem updateHolding_of_none (f : Note → Note) : updateHolding part stamp f before = before := by
  have kept := updateHolding_append passed f []
  rwa [List.append_nil, updateHolding, List.append_nil] at kept

theorem find?_holds_of_first {n : Note} (holds : n.holds part stamp = true) (after : List Note) :
    (before ++ n :: after).find? (·.holds part stamp) = some n := by
  rw [List.find?_append, List.find?_eq_none.2 passed, Option.none_or, List.find?_cons_of_pos holds]

end

/-! ## The verdict (R120, R124) -/

/-- What the note's slot holds after the result. -/
def Note.slotAfter (rm : Room) (m : Mic) (x : AnalysisResult) (n : Note) : Onset :=
  if n.onset.get m ≠ .pending then n.onset.get m
  else if inTable ((n.number : Int) + rm.timeline.keyOffset) then
    judgeOnset (rm.settings.micParts.get m) m rm.settings.onsetWindow (rm.singers.get m).runStart x n
  else .notJudged

theorem Note.take_eq (rm : Room) (m : Mic) (x : AnalysisResult) (n : Note) :
    n.take rm m x = { n with seen := n.seen.set m true, onset := n.onset.set m (n.slotAfter rm m x) } := rfl

theorem inTable_iff {ref : Int} : inTable ref = true ↔ ¬(ref < 40 ∨ 84 < ref) := by
  rw [inTable, Bool.and_eq_true, decide_eq_true_eq, decide_eq_true_eq, not_or, not_lt, not_lt]

section

variable {part : MicPart} {m : Mic} {window : Nat} {run : Option Nat} {x : AnalysisResult} {n : Note}

theorem judgeOnset_of_unvoiced (unvoiced : x.measured = none) : judgeOnset part m window run x n = .pending := by
  simp only [judgeOnset, unvoiced]

/-- A voiced frame that begins a run. -/
theorem judgeOnset_of_begun {y : MeasuredNote} (voiced : x.measured = some y) :
    judgeOnset part m window none x n = if x.stamp ≤ n.start + window then .good else .late := by
  simp only [judgeOnset, voiced]

/-- A voiced frame with a run under way. -/
theorem judgeOnset_of_run {y : MeasuredNote} {start : Nat} (voiced : x.measured = some y) :
    judgeOnset part m window (some start) x n =
      if n.seen.get m then .pending
      else if n.nearStart window start || (n.previousEnd part).any (n.nearStart window) then .good else .late := by
  simp only [judgeOnset, voiced]

/-- A verdict given here is PENDING, GOOD or LATE. -/
theorem judgeOnset_cases :
    judgeOnset part m window run x n = .pending ∨ judgeOnset part m window run x n = .good ∨
      judgeOnset part m window run x n = .late := by
  unfold judgeOnset
  split
  · exact .inl rfl
  · split <;> simp
  · split
    · exact .inl rfl
    · split <;> simp

/-- A pending slot stays so, or takes a verdict other than MISSED. -/
theorem Note.slotAfter_cases {rm : Room} (pending : n.onset.get m = .pending) :
    n.slotAfter rm m x = .pending ∨ n.slotAfter rm m x = .notJudged ∨ n.slotAfter rm m x = .good ∨
      n.slotAfter rm m x = .late := by
  rw [Note.slotAfter, if_neg (not_not.2 pending)]
  split
  · rcases judgeOnset_cases (part := rm.settings.micParts.get m) (m := m) (window := rm.settings.onsetWindow)
      (run := (rm.singers.get m).runStart) (x := x) (n := n) with same | same | same <;> simp [same]
  · exact .inr (.inl rfl)

end

/-! ## The counters (R118, R125) -/

/-- A verdict other than MISSED counted. -/
theorem Singer.judge_eq {v : Onset} (seen : v ≠ .missed) (y : Singer) :
    y.judge v =
      if 65535 ≤ y.judged then y
      else if v = .good then { y with judged := y.judged + 1, good := y.good + 1 }
      else if v = .late then { y with judged := y.judged + 1, late := y.late + 1 }
      else y := by
  by_cases full : 65535 ≤ y.judged
  · rw [if_pos full]; exact if_neg (not_lt.2 full)
  · rw [if_neg full]
    refine (if_pos (not_le.1 full)).trans ?_
    cases v with
    | missed => exact absurd rfl seen
    | _ => rfl

theorem Singer.take_eq (rm : Room) (m : Mic) (x : AnalysisResult) (n : Note) (y : Singer) :
    y.take rm m x n =
      (fun z : Singer =>
        if 40 ≤ (n.number : Int) + rm.timeline.keyOffset ∧ (n.number : Int) + rm.timeline.keyOffset ≤ 84 ∧
            rm.timeline.keyStamp + rm.settings.keyGrace ≤ x.stamp then
          z.count (gradeOf rm.settings ((n.number : Int) + rm.timeline.keyOffset) x.measured)
        else z)
      (if n.onset.get m ≠ .pending ∨ 65535 ≤ y.judged then y
        else if n.slotAfter rm m x = .good then { y with judged := y.judged + 1, good := y.good + 1 }
        else if n.slotAfter rm m x = .late then { y with judged := y.judged + 1, late := y.late + 1 }
        else y) := by
  have judged : (if n.onset.get m = .pending then y.judge ((n.take rm m x).onset.get m) else y) =
      (if n.onset.get m ≠ .pending ∨ 65535 ≤ y.judged then y
        else if n.slotAfter rm m x = .good then { y with judged := y.judged + 1, good := y.good + 1 }
        else if n.slotAfter rm m x = .late then { y with judged := y.judged + 1, late := y.late + 1 }
        else y) := by
    by_cases pending : n.onset.get m = .pending
    · have counts : n.slotAfter rm m x ≠ .missed := by
        rcases Note.slotAfter_cases (x := x) (rm := rm) pending with same | same | same | same <;> simp [same]
      rw [if_pos pending, Note.take_eq]
      simp only [PerMic.get_set_self, Singer.judge_eq counts, pending, ne_eq, not_true_eq_false, false_or]
    · rw [if_neg pending, if_pos (.inl pending)]
  simp only [← judged, ← and_assoc]
  simp only [Singer.take, inTable, Bool.and_eq_true, decide_eq_true_eq]

theorem Room.takeResult_of_first {rm : Room} {m : Mic} {x : AnalysisResult} {before after : List Note} {n : Note}
    (split : rm.melody.notes = before ++ n :: after)
    (passed : ∀ k ∈ before, ¬k.holds (rm.settings.micParts.get m) x.stamp = true)
    (holds : n.holds (rm.settings.micParts.get m) x.stamp = true) :
    rm.takeResult m x =
      { rm with
        melody := { rm.melody with
          notes := before ++
            { n with seen := n.seen.set m true, onset := n.onset.set m (n.slotAfter rm m x) } :: after }
        singers := rm.singers.set m
          { (rm.singers.get m).take rm m x n with runStart := nextRun (rm.singers.get m).runStart x } } := by
  simp only [Room.takeResult, split, find?_holds_of_first passed holds, updateHolding_of_first passed holds, Note.take_eq]

theorem Room.takeResult_of_none {rm : Room} {m : Mic} {x : AnalysisResult}
    (passed : ∀ k ∈ rm.melody.notes, ¬k.holds (rm.settings.micParts.get m) x.stamp = true) :
    rm.takeResult m x =
      { rm with
        singers := rm.singers.set m
          { rm.singers.get m with runStart := nextRun (rm.singers.get m).runStart x } } := by
  have none := List.find?_eq_none.2 passed
  simp only [Room.takeResult, none, updateHolding_of_none passed]

/-! ## The obligation -/

theorem HandOver.analysisOf_eq_none {hs : List HandOver} (absent : ∀ z, HandOver.analysis z ∉ hs) :
    ∀ y ∈ hs, HandOver.analysisOf y = none := by
  intro y member
  cases y with
  | analysis z => exact absurd member (absent z)
  | _ => rfl

theorem exec_analysisResult_first {s : State} {x : AnalysisResult} {before rest : List HandOver}
    (first : ∀ z, HandOver.analysis z ∉ before) :
    exec .analysisResult { s with handed := before ++ .analysis x :: rest } =
      .next (({ s with handed := before ++ rest }).resultTaken x).startUplink :=
  congrArg finish (State.takeHanded_of_first (HandOver.analysisOf_eq_none first) rfl _)

/-- Settles O48, by whether a note holds the stamp, and by what its slot holds and what the run start is. -/
theorem analysisResultIsGraded : Obligations.AnalysisResultIsGraded := by
  intro s x older rest r m first channel
  have room : roomOf x.channel = r := by rw [channel, roomOf_channelOf]
  have mic : micOf x.channel = m := by rw [channel, micOf_channelOf]
  rw [exec_analysisResult_first first]
  have other (q : RoomId) : ({ s with handed := older ++ rest } : State).room q = s.room q := rfl
  refine ⟨fun idle => ?_, ?_⟩
  · rw [State.resultTaken, room, other, if_neg idle]
  rintro y y' part notes' holds playing rfl rfl rfl case
  have next : (if x.measured = none then none else some (((s.room r).singers.get m).runStart.getD x.stamp)) =
      nextRun ((s.room r).singers.get m).runStart x := by
    unfold nextRun; cases x.measured <;> rfl
  rw [State.resultTaken, room, other, if_pos playing, mic, State.modRoom_eq, other, next]
  simp only [← Note.holds_iff] at case
  rcases case with ⟨none, rfl, rfl⟩ | ⟨before, after, n, verdict, ref, split, passed, here, rfl, given, rfl, rfl⟩
  · rw [Room.takeResult_of_none none]
    rfl
  · have slot : verdict = n.slotAfter (s.room r) m x := by
      rw [given, Note.slotAfter]
      by_cases settled : n.onset.get m ≠ .pending
      · rw [if_pos settled, if_pos settled]
      rw [if_neg settled, if_neg settled]
      by_cases outside : (n.number : Int) + (s.room r).timeline.keyOffset < 40 ∨ 84 < (n.number : Int) + (s.room r).timeline.keyOffset
      · rw [if_pos outside, if_neg (not_not.2 outside ∘ inTable_iff.1)]
      rw [if_neg outside, if_pos (inTable_iff.2 outside)]
      cases measured : x.measured with
      | none => rw [if_pos rfl, judgeOnset_of_unvoiced measured]
      | some note =>
        rw [if_neg (Option.some_ne_none _)]
        cases ((s.room r).singers.get m).runStart with
        | none => exact (judgeOnset_of_begun measured).symm
        | some run =>
          rw [judgeOnset_of_run measured]
          simp only [Bool.or_eq_true, Note.nearStart, decide_eq_true_eq]
          cases (s.room r).settings.micParts.get m <;> rfl
    rw [Room.takeResult_of_first split passed here, Singer.take_eq, ← slot]
    rfl

end Sys2Proof.Machine
end

section
/-! SUPPORT. The reply window and its misses (R136, R138), and the polls of a slot (R134, R135): a window that fails as one
update of its line, the handset that a slot chooses, the bytes of its poll, and the uplink's choice between the two. -/

namespace Sys2Proof.Machine

theorem State.unlessReset_of_released {s : State} (released : s.link.resetLine = false) (t : State) : s.unlessReset t = t := by
  rw [State.unlessReset, released]; rfl

/-! ## Windows that fail (R136, R138) -/

theorem RequestLine.failWindow_eq {ln : RequestLine} {o : Slot} {x : HandsetRecord} (silent : Bool)
    (record : x = ln.records.get o.handset) :
    ln.failWindow o silent =
      { ln with
        slot := none, received := []
        silent := if silent = true ∧ x.online = true then satInc ln.silent else ln.silent
        garbled := if silent = true then ln.garbled else satInc ln.garbled
        records := ln.records.set o.handset { x with misses := if x.online then x.misses + 1 else x.misses } } := by
  by_cases online : x.online = true
  · subst record
    unfold RequestLine.failWindow
    cases silent <;> simp [online, RequestLine.idle, RequestLine.modRecord, HandsetRecord.missed]
  · have same : ln.records.set o.handset { x with misses := if x.online then x.misses + 1 else x.misses } = ln.records := by
      rw [if_neg online, record]; exact Vector.set_getElem_self _
    rw [same]
    subst record
    unfold RequestLine.failWindow
    cases silent <;> simp [online, RequestLine.idle]

theorem State.takeOffline_eq (s : State) (r : RoomId) (h : HandsetId) :
    s.takeOffline r h =
      { s.setRoom r
          { s.room r with line := { (s.room r).line with
              records := (s.room r).line.records.set h ⟨false, 0, none, none, false, []⟩, changed := some h } } with
        handed := s.handed.map (HandOver.forget r fun k => decide (k = h))
        link := s.link.hear (s.room r).mask r .handsetChanged } := by
  simp only [State.takeOffline, State.reportHandset, State.raise_eq_hear, State.modLine, State.modRoom_eq,
    State.forgetAnswers, State.room_mk_rooms, State.room_setRoom_self, State.setRoom_link]
  simp only [State.setRoom, Vector.set_set]
  rfl

theorem HandsetRecord.lastChance_iff {x : HandsetRecord} : x.lastChance = true ↔ x.online = true ∧ 2 ≤ x.misses := by
  rw [HandsetRecord.lastChance, Bool.and_eq_true, decide_eq_true_eq]
  exact and_congr_right fun _ => Nat.succ_le_succ_iff

section

variable {s : State} {r : RoomId} {o : Slot}

/-- A miss that is none or not the third (R138). -/
theorem State.failWindow_of_stays (silent : Bool)
    (stays : (s.handset r o.handset).online = false ∨ (s.handset r o.handset).misses < 2) :
    s.failWindow r o silent =
      s.setRoom r { s.room r with line := (s.room r).line.failWindow o silent } := by
  have another : ¬(s.handset r o.handset).lastChance = true := by
    rw [HandsetRecord.lastChance_iff]
    rintro ⟨online, missed⟩
    rcases stays with off | few
    · simp [online] at off
    · omega
  unfold State.failWindow
  dsimp only
  rw [if_neg another, State.modLine, State.modRoom_eq]

/-- The third miss (R138, R140, R145). -/
theorem State.failWindow_of_third (silent : Bool) (online : (s.handset r o.handset).online = true)
    (missed : 2 ≤ (s.handset r o.handset).misses) :
    s.failWindow r o silent =
      { s.setRoom r
          { s.room r with line := { (s.room r).line.failWindow o silent with
              records := (s.room r).line.records.set o.handset ⟨false, 0, none, none, false, []⟩
              changed := some o.handset } } with
        handed := s.handed.map (HandOver.forget r fun k => decide (k = o.handset))
        link := s.link.hear (s.room r).mask r .handsetChanged } := by
  unfold State.failWindow
  dsimp only
  rw [if_pos (HandsetRecord.lastChance_iff.2 ⟨online, missed⟩), State.takeOffline_eq, State.modLine, State.modRoom_eq,
    RequestLine.failWindow_eq silent rfl]
  simp only [State.room_setRoom_self, State.setRoom_setRoom, State.setRoom_link, State.setRoom_handed, Vector.set_set]

theorem State.closeWindow_of_open (opened : (s.room r).line.slot = some o) :
    s.closeWindow r = s.failWindow r o (s.room r).line.received.isEmpty := by
  simp only [State.closeWindow, opened]

theorem State.closeWindow_of_idle (idle : (s.room r).line.slot = none) : s.closeWindow r = s := by
  simp only [State.closeWindow, idle]

/-- HANDSET_OFFLINE has an effect for the handset polled, at its third miss, alone. -/
theorem State.thirdMiss_of_other {h : HandsetId}
    (none : (∀ o ∈ (s.room r).line.slot, o.handset ≠ h) ∨ (s.handset r h).online = false ∨ (s.handset r h).misses < 2) :
    s.thirdMiss r h = s := by
  refine if_neg ?_
  rw [Bool.and_eq_true, HandsetRecord.lastChance_iff]
  rintro ⟨polled, online, missed⟩
  obtain ⟨o, opened, same⟩ := (Option.any_eq_true _ _).1 polled
  rcases none with others | off | few
  · exact others o opened (of_decide_eq_true same)
  · simp [online] at off
  · omega

theorem State.thirdMiss_of_third (opened : (s.room r).line.slot = some o) (online : (s.handset r o.handset).online = true)
    (missed : 2 ≤ (s.handset r o.handset).misses) : s.thirdMiss r o.handset = s.closeWindow r := by
  refine if_pos ?_
  rw [Bool.and_eq_true, HandsetRecord.lastChance_iff, opened]
  exact ⟨decide_eq_true rfl, online, missed⟩

end

/-- Settles O51, by whether a window is open, and by whether its handset misses for the third time. -/
theorem missesTakeAHandsetOffline : Obligations.MissesTakeAHandsetOffline := by
  rintro s r ln rfl
  refine ⟨fun idle => congrArg finish ?_, fun h none => congrArg finish ?_, ?_⟩
  · rcases idle with asserted | idle
    · exact State.unlessReset_of_asserted asserted _
    · rw [State.closeWindow_of_idle idle, State.unlessReset, ite_self]
  · rcases none with asserted | none
    · exact State.unlessReset_of_asserted asserted _
    · rw [State.thirdMiss_of_other none, State.unlessReset, ite_self]
  rintro o x silent garbled released opened rfl rfl rfl
  have closed : exec (.replyWindowClose r) s = .next (s.closeWindow r).startUplink :=
    congrArg finish (State.unlessReset_of_released released _)
  have bytes : ((s.room r).line.received.isEmpty = true) ↔ (s.room r).line.received = [] := List.isEmpty_iff
  have line := RequestLine.failWindow_eq (ln := (s.room r).line) (o := o) (s.room r).line.received.isEmpty rfl
  simp only [bytes] at line
  refine ⟨fun stays => ?_, ?_⟩
  · rw [closed, State.closeWindow_of_open opened, State.failWindow_of_stays _ stays, line]
  · rintro online missed u rfl
    have third : exec (.handsetOffline r o.handset) s = exec (.replyWindowClose r) s :=
      congrArg (finish ∘ s.unlessReset) (State.thirdMiss_of_third opened online missed)
    rw [third, closed, State.closeWindow_of_open opened, State.failWindow_of_third _ online missed, line]
    exact ⟨rfl, rfl⟩

/-! ## The handset of a slot (R134) -/

/-- The first handset after a cursor of those that `p` accepts is found. -/
theorem find?_pollOrder_of_first {p : HandsetId → Bool} {cursor : Nat} {h : HandsetId} (own : p h = true)
    (first : ∀ k, p k = true → (h.val + 15 - cursor % 15) % 15 ≤ (k.val + 15 - cursor % 15) % 15) :
    (pollOrder cursor).find? p = some h := by
  have place : (⟨(cursor + (h.val + 15 - cursor % 15) % 15) % 15, Nat.mod_lt _ (by decide)⟩ : HandsetId) = h := by
    have range := h.isLt
    ext
    simp only
    omega
  have found : (List.range 15).find? (fun i => p ⟨(cursor + i) % 15, Nat.mod_lt _ (by decide)⟩) =
      some ((h.val + 15 - cursor % 15) % 15) := by
    refine List.find?_range_eq_some.2 ⟨(congrArg p place).trans own, List.mem_range.2 (Nat.mod_lt _ (by decide)), fun j before => ?_⟩
    by_contra refused
    have nearer := first ⟨(cursor + j) % 15, Nat.mod_lt _ (by decide)⟩ (by simpa using refused)
    simp only at nearer
    omega
  rw [pollOrder, List.find?_map]
  refine (congrArg (Option.map _) found).trans (congrArg some place)

theorem find?_pollOrder_of_none {p : HandsetId → Bool} {cursor : Nat} (none : ∀ k, p k = false) :
    (pollOrder cursor).find? p = Option.none :=
  List.find?_eq_none.2 fun k _ => by simp [none k]

section

variable {ln : RequestLine} {h : HandsetId}

/-- A discovery probe: in slot 0, or when no handset is ONLINE. -/
theorem RequestLine.choose_of_probe (off : (ln.records.get h).online = false)
    (slot : ln.slotCount = 0 ∨ ∀ k : HandsetId, (ln.records.get k).online = false)
    (first : ∀ k : HandsetId, (ln.records.get k).online = false →
      (h.val + 15 - ln.discoveryCursor % 15) % 15 ≤ (k.val + 15 - ln.discoveryCursor % 15) % 15) :
    ln.choose = some (h, true) := by
  have probe : ln.nextProbe = some h :=
    find?_pollOrder_of_first (by simp [off]) fun k accepted => first k (by simpa using accepted)
  rcases slot with zero | none
  · simp [RequestLine.choose, probe, zero]
  · have turn : ln.nextTurn = Option.none := find?_pollOrder_of_none none
    simp [RequestLine.choose, probe, turn]

/-- The turn of an ONLINE handset: outside slot 0, or when none is OFFLINE. -/
theorem RequestLine.choose_of_turn (on : (ln.records.get h).online = true)
    (slot : ln.slotCount ≠ 0 ∨ ∀ k : HandsetId, (ln.records.get k).online = true)
    (first : ∀ k : HandsetId, (ln.records.get k).online = true →
      (h.val + 15 - ln.slotCursor % 15) % 15 ≤ (k.val + 15 - ln.slotCursor % 15) % 15) :
    ln.choose = some (h, false) := by
  have turn : ln.nextTurn = some h := find?_pollOrder_of_first on first
  rcases slot with other | all
  · simp [RequestLine.choose, turn, other]
  · have probe : ln.nextProbe = Option.none := find?_pollOrder_of_none fun k => by simp [all k]
    simp [RequestLine.choose, probe, turn]

theorem RequestLine.choose_of_first {probe : Bool} (state : (ln.records.get h).online = !probe)
    (discovers : probe = true → ln.slotCount = 0 ∨ ∀ k : HandsetId, (ln.records.get k).online = false)
    (turns : probe = false → ln.slotCount ≠ 0 ∨ ∀ k : HandsetId, (ln.records.get k).online = true)
    (first : ∀ k : HandsetId, (ln.records.get k).online = (ln.records.get h).online →
      (h.val + 15 - (if probe then ln.discoveryCursor else ln.slotCursor) % 15) % 15 ≤
        (k.val + 15 - (if probe then ln.discoveryCursor else ln.slotCursor) % 15) % 15) :
    ln.choose = some (h, probe) := by
  cases probe with
  | true => exact RequestLine.choose_of_probe state (discovers rfl) fun k off => first k (off.trans state.symm)
  | false => exact RequestLine.choose_of_turn state (turns rfl) fun k on => first k (on.trans state.symm)

/-! ## The bytes of a poll (R131, R135, 11.3) -/

theorem txChar_eq (z : Byte) :
    txChar z = ⟨z, z.getLsbD 0 ^^ z.getLsbD 1 ^^ z.getLsbD 2 ^^ z.getLsbD 3 ^^ z.getLsbD 4 ^^ z.getLsbD 5 ^^
      z.getLsbD 6 ^^ z.getLsbD 7, true⟩ := by
  have parity : evenParity z = (false ^^ z.getLsbD 0 ^^ z.getLsbD 1 ^^ z.getLsbD 2 ^^ z.getLsbD 3 ^^ z.getLsbD 4 ^^
    z.getLsbD 5 ^^ z.getLsbD 6 ^^ z.getLsbD 7) := rfl
  rw [txChar, parity, Bool.false_xor]

/-- A poll of a line with no window open (R134, R135). -/
theorem State.pollSlot_of_idle {s : State} {r : RoomId} {probe : Bool} (due : (s.room r).line.slotTimer = 0)
    (idle : (s.room r).line.slot = none) (chosen : (s.room r).line.choose = some (h, probe)) :
    s.pollSlot r = s.setRoom r { s.room r with line := (s.room r).line.poll h probe } := by
  simp only [State.pollSlot, due, if_true, State.closeWindow_of_idle idle, chosen, State.modLine, State.modRoom_eq]

end

/-! ## The uplink's choice around a poll (R169) -/

/-- Once the uplink has chosen, it has no other cell to choose. -/
theorem State.startUplink_startUplink (s : State) : s.startUplink.startUplink = s.startUplink := by
  by_cases free : s.link.mayChoose = true
  · have chose : s.startUplink = { s with link := s.chosenLink } := if_pos free
    have settled : s.chosenLink.transmit.isSome = true ∨ s.chosenLink = s.link := by
      rcases s.chosenLink_cases with ⟨c, next, chosen⟩ | ⟨-, x, xs, -, chosen⟩ | ⟨-, -, p, ps, -, chosen⟩ |
        ⟨-, -, -, chosen⟩ <;> rw [chosen]
      · exact .inl ((Option.isSome_map ..).trans (Link.isSome_of_nextMic next))
      · exact .inl rfl
      · exact .inl rfl
      · exact .inr rfl
    rcases settled with busy | same
    · refine State.startUplink_of_busy (.inr (.inr ?_))
      rw [chose]
      exact busy
    · have kept : s.startUplink = s := by rw [chose, same]
      rw [kept, kept]
  · have kept : s.startUplink = s := if_neg free
    rw [kept, kept]

section

variable {s : State} {r : RoomId} {x : Room} (content : ∀ k, x.noticeContent k = (s.room r).noticeContent k)

include content

/-- A change of a room that no notice shows leaves the uplink's choice. -/
theorem State.startUplink_setRoom : (s.setRoom r x).startUplink = s.startUplink.setRoom r x := by
  have notice (p : NoticePair) : (s.setRoom r x).noticeContent p = s.noticeContent p := by
    unfold State.noticeContent
    cases p.room with
    | none => rfl
    | some q =>
      by_cases same : q = r
      · subst same
        exact (congrArg (·.noticeContent p.kind) (s.room_setRoom_self q x)).trans (content p.kind)
      · exact congrArg (·.noticeContent p.kind) (s.room_setRoom_of_ne same x)
  have chosen : (s.setRoom r x).chosenLink = s.chosenLink := by
    simp only [State.chosenLink, State.setRoom_link, notice]
  rw [State.startUplink_eq, State.startUplink_eq, chosen]
  rfl

/-- Such a change may as well come after the choice. -/
theorem State.startUplink_setRoom_startUplink : (s.startUplink.setRoom r x).startUplink = (s.setRoom r x).startUplink := by
  rw [State.startUplink_setRoom (s := s.startUplink) (by simpa using content), State.startUplink_startUplink,
    State.startUplink_setRoom content]

end

/-- No notice shows what a poll changes. -/
theorem Room.noticeContent_poll (rm : Room) (h : HandsetId) (probe : Bool) (k : NoticeKind) :
    ({ rm with line := rm.line.poll h probe } : Room).noticeContent k = rm.noticeContent k := by
  have online (i : HandsetId) : ((rm.line.poll h probe).records.get i).online = (rm.line.records.get i).online := by
    by_cases same : i = h
    · subst same; exact (congrArg HandsetRecord.online (Vector.get_set_self ..)).trans rfl
    · exact congrArg HandsetRecord.online (Vector.get_set_of_ne _ same _)
  cases k with
  | handsetChanged =>
    have changed : (rm.line.poll h probe).changed = rm.line.changed := rfl
    simp only [Room.noticeContent, handsetChangedBytes, changed, online]
  | _ => rfl

/-- A window that fails is closed, and leaves the slot timer. -/
theorem State.failWindow_line (s : State) (r : RoomId) (o : Slot) (silent : Bool) :
    ((s.failWindow r o silent).room r).line.slot = none ∧
      ((s.failWindow r o silent).room r).line.slotTimer = (s.room r).line.slotTimer := by
  have line := RequestLine.failWindow_eq (ln := (s.room r).line) (o := o) silent rfl
  by_cases third : (s.handset r o.handset).online = true ∧ 2 ≤ (s.handset r o.handset).misses
  · rw [State.failWindow_of_third silent third.1 third.2, State.room_mk_rooms, State.room_setRoom_self, line]
    exact ⟨rfl, rfl⟩
  · have stays : (s.handset r o.handset).online = false ∨ (s.handset r o.handset).misses < 2 := by
      cases online : (s.handset r o.handset).online with
      | false => exact .inl rfl
      | true => exact .inr (not_le.1 fun missed => third ⟨online, missed⟩)
    rw [State.failWindow_of_stays silent stays, State.room_setRoom_self, line]
    exact ⟨rfl, rfl⟩

/-- A poll slot closes a window still open, and then polls (R134, log entry 20). -/
theorem State.pollSlot_of_open {s : State} {r : RoomId} {o : Slot} (due : (s.room r).line.slotTimer = 0)
    (opened : (s.room r).line.slot = some o) : s.pollSlot r = (s.closeWindow r).pollSlot r := by
  have closed := s.failWindow_line r o (s.room r).line.received.isEmpty
  rw [← State.closeWindow_of_open opened] at closed
  simp only [State.pollSlot, due, closed.2, if_true, State.closeWindow_of_idle closed.1]

/-- A poll after the uplink's choice. -/
theorem State.pollSlot_startUplink {s : State} {r : RoomId} (due : (s.room r).line.slotTimer = 0)
    (idle : (s.room r).line.slot = none) : (s.startUplink.pollSlot r).startUplink = (s.pollSlot r).startUplink := by
  have room := s.startUplink_room r
  cases chosen : (s.room r).line.choose with
  | none =>
    have rests (t : State) (same : t.room r = s.room r) : t.pollSlot r = t := by
      simp only [State.pollSlot, same, due, if_true, State.closeWindow_of_idle (s := t) (same ▸ idle), chosen]
    rw [rests _ room, rests s rfl, State.startUplink_startUplink]
  | some choice =>
    obtain ⟨h, probe⟩ := choice
    rw [State.pollSlot_of_idle (s := s.startUplink) (room.symm ▸ due) (room.symm ▸ idle) (room.symm ▸ chosen),
      State.pollSlot_of_idle due idle chosen, room,
      State.startUplink_setRoom_startUplink (Room.noticeContent_poll (s.room r) h probe)]

/-- Settles O50, by the handset that the slot chooses and the bytes of its poll. -/
theorem pollSlotPollsOneHandset : Obligations.PollSlotPollsOneHandset := by
  intro s r
  refine ⟨fun idle => congrArg finish ?_, fun released due opened => ?_, ?_⟩
  · rcases idle with asserted | early
    · exact State.unlessReset_of_asserted asserted _
    · have early : s.pollSlot r = s := if_neg early
      rw [early, State.unlessReset, ite_self]
  · obtain ⟨o, opened⟩ := Option.isSome_iff_exists.1 opened
    have closed := s.failWindow_line r o (s.room r).line.received.isEmpty
    rw [← State.closeWindow_of_open opened] at closed
    have asserted : (s.closeWindow r).startUplink.link.resetLine = false := by
      rw [State.startUplink_resetLine, (s.keeps_closeWindow r).line, released]
    refine ⟨(s.closeWindow r).startUplink, congrArg finish (State.unlessReset_of_released released _), asserted, ?_, ?_, ?_⟩
    · rw [State.startUplink_room, closed.2, due]
    · rw [State.startUplink_room, closed.1]
    · refine Eq.trans (congrArg finish (State.unlessReset_of_released released _)) (Eq.trans ?_
        (congrArg finish (State.unlessReset_of_released asserted _)).symm)
      rw [State.pollSlot_of_open due opened]
      exact congrArg Host.Outcome.next (State.pollSlot_startUplink (closed.2.trans due) closed.1).symm
  · rintro ln h probe x released rfl due idle rfl state discovers turns first b answer news payload body rfl answered told
      rfl rfl
    have chosen := RequestLine.choose_of_first state discovers turns first
    have carried : ((s.room r).line.records.get h).pollPayload = answer ++ news := by
      rw [answered, told, HandsetRecord.pollPayload]
      congr 1
      · cases ((s.room r).line.records.get h).answerPending with
        | false => rfl
        | true =>
          cases ((s.room r).line.records.get h).stored with
          | none => rfl
          | some z =>
            obtain ⟨answer, bit⟩ := z
            cases answer with
            | refused code => cases bit <;> cases code <;> rfl
            | _ => cases bit <;> rfl
      · cases ((s.room r).line.records.get h).outbox.head? with
        | none => rfl
        | some z =>
          obtain ⟨kind, ticket⟩ := z
          cases kind <;> rfl
    refine congrArg finish ?_
    rw [State.unlessReset_of_released released, State.pollSlot_of_idle due idle chosen]
    simp only [← txChar_eq, ← carried]
    rfl

end Sys2Proof.Machine
end

section
/-! SUPPORT. Replies of handsets: when one is whole and how it is read (R131, R132, R180), the handset that replied (R139),
and what a message of its brings about (R140 to R143). -/

namespace Sys2Proof.Machine

/-! ## When a reply is whole (R131, R136) -/

theorem rxBad_eq (c : RxChar) :
    rxBad c = ((c.data.getLsbD 0 ^^ c.data.getLsbD 1 ^^ c.data.getLsbD 2 ^^ c.data.getLsbD 3 ^^ c.data.getLsbD 4 ^^
      c.data.getLsbD 5 ^^ c.data.getLsbD 6 ^^ c.data.getLsbD 7 ^^ c.parity) || !c.stop || c.overrun) := by
  have parity : evenParity c.data = (false ^^ c.data.getLsbD 0 ^^ c.data.getLsbD 1 ^^ c.data.getLsbD 2 ^^ c.data.getLsbD 3 ^^
    c.data.getLsbD 4 ^^ c.data.getLsbD 5 ^^ c.data.getLsbD 6 ^^ c.data.getLsbD 7) := rfl
  rw [rxBad, parity, Bool.false_xor, Bool.bne_eq_xor, Bool.xor_comm c.parity]

theorem completeReply_of_short {cs : List RxChar} (short : cs.length < 4) : completeReply cs = none := by
  simp only [completeReply, List.getElem?_eq_none (Nat.le_of_lt_succ short)]

section

variable {before after : List RxChar} {c : RxChar} (head : before.length = 3)

include head

theorem completeReply_of_bad (bad : rxBad c = true) : completeReply (before ++ c :: after) = none := by
  have fourth : (before ++ c :: after)[3]? = some c := by simp [head]
  simp only [completeReply, fourth, bad, if_true]

theorem completeReply_of_partial (few : after.length < c.data.toNat + 1) : completeReply (before ++ c :: after) = none := by
  have fourth : (before ++ c :: after)[3]? = some c := by simp [head]
  have length : ¬5 + c.data.toNat ≤ (before ++ c :: after).length := by simp [head]; omega
  simp only [completeReply, fourth, length, if_false, ite_self]

theorem completeReply_of_whole (good : rxBad c = false) (enough : c.data.toNat + 1 ≤ after.length) :
    completeReply (before ++ c :: after) = some (before ++ c :: after.take (c.data.toNat + 1)) := by
  have fourth : (before ++ c :: after)[3]? = some c := by simp [head]
  have length : 5 + c.data.toNat ≤ (before ++ c :: after).length := by simp [head]; omega
  have behind : 5 + c.data.toNat - 3 = (c.data.toNat + 1) + 1 := by omega
  simp only [completeReply, fourth, good, length, Bool.false_eq_true, if_false, if_true]
  rw [List.take_append, head, List.take_of_length_le (by omega), behind, List.take_succ_cons]

end

/-! ## How a reply is read (R132, R180) -/

/-- A reply read from its bytes. -/
theorem judgeReply_eq {h : HandsetId} {reply : List RxChar} {address kind sequence length check : Byte} {payload : List Byte}
    (bytes : reply.map (·.data) = [address, kind, sequence, length] ++ payload ++ [check]) :
    judgeReply h reply =
      if reply.any rxBad then none
      else if ([address, kind, sequence, length] ++ payload).foldl (· ^^^ ·) 0 ≠ check then none
      else if address.toNat ≠ h.val + 1 then none
      else (flagOf sequence.toNat).bind fun bit => (readMessage kind.toNat payload).map fun m => (bit, m) := by
  have body : ([address, kind, sequence, length] ++ payload ++ [check]).dropLast = [address, kind, sequence, length] ++ payload :=
    List.dropLast_concat
  have last : ([address, kind, sequence, length] ++ payload ++ [check]).getLastD 0 = check := by
    rw [List.getLastD_eq_getLast?, List.getLast?_concat]; rfl
  simp only [judgeReply, bytes, body, last]
  refine if_congr Iff.rfl rfl (if_congr Iff.rfl rfl (if_congr Iff.rfl rfl ?_))
  show (match flagOf sequence.toNat, readMessage kind.toNat payload with
    | some bit, some m => some (bit, m)
    | _, _ => none) = _
  cases flagOf sequence.toNat <;> cases readMessage kind.toNat payload <;> rfl

theorem readMessage_isSome_iff {kind : Nat} {payload : List Byte} :
    (readMessage kind payload).isSome = true ↔ (kind, payload.length) ∈ [(0, 0), (1, 7), (2, 1), (3, 0)] := by
  generalize length : payload.length = n
  unfold readMessage
  rw [length]
  split
  next => simp
  next => simp
  next => simp
  next => simp
  next other1 other2 other3 other4 =>
    refine iff_of_false Bool.false_ne_true fun member => ?_
    simp only [List.mem_cons, List.not_mem_nil, or_false, Prod.mk.injEq] at member
    rcases member with ⟨rfl, rfl⟩ | ⟨rfl, rfl⟩ | ⟨rfl, rfl⟩ | ⟨rfl, rfl⟩
    · exact other1 rfl rfl
    · exact other2 rfl rfl
    · exact other3 rfl rfl
    · exact other4 rfl rfl

/-- A byte that counts as set (R180). -/
theorem toNat_ne_zero_iff {b : Byte} : b.toNat ≠ 0 ↔ b ≠ 0 :=
  not_congr ⟨fun zero => BitVec.eq_of_toNat_eq zero, fun zero => congrArg BitVec.toNat zero⟩

/-- A REQUEST as its seven bytes give it (R141, R180). -/
theorem readMessage_request (song2 song1 song0 duet present preset priority : Byte) :
    readMessage (1 : Byte).toNat [song2, song1, song0, duet, present, preset, priority] =
      some (.request (65536 * song2.toNat + 256 * song1.toNat + song0.toNat) (decide (duet ≠ 0))
        (if present = 0 then none else some (max (-6) (min 6 preset.toInt))) (decide (priority ≠ 0))) := by
  have song : 256 * (256 * song2.toNat + song1.toNat) + song0.toNat =
      65536 * song2.toNat + 256 * song1.toNat + song0.toNat := by omega
  have clamp : clampInt (-6) 6 preset.toInt = max (-6) (min 6 preset.toInt) := by simp only [clampInt]; omega
  have given : (if present.toNat ≠ 0 then some (clampInt (-6) 6 preset.toInt) else none) =
      if present = 0 then none else some (max (-6) (min 6 preset.toInt)) := by
    rw [clamp, ite_not]
    exact if_congr (not_iff_not.1 toNat_ne_zero_iff) rfl rfl
  show some (Message.request (256 * (256 * song2.toNat + song1.toNat) + song0.toNat) (decide (duet.toNat ≠ 0))
    (if present.toNat ≠ 0 then some (clampInt (-6) 6 preset.toInt) else none) (decide (priority.toNat ≠ 0))) = _
  rw [song, given, decide_eq_decide.2 toNat_ne_zero_iff, decide_eq_decide.2 (toNat_ne_zero_iff (b := priority))]

/-- The sequence byte of a sound reply. -/
theorem flagOf_sequence {sequence : Byte} (sound : sequence = 0 ∨ sequence = 1) :
    flagOf sequence.toNat = some (decide (sequence = 1)) := by
  rcases sound with rfl | rfl <;> rfl

theorem flagOf_sequence_none {sequence : Byte} (unsound : sequence ≠ 0 ∧ sequence ≠ 1) : flagOf sequence.toNat = none := by
  obtain ⟨zero, one⟩ := unsound
  cases read : flagOf sequence.toNat with
  | none => rfl
  | some bit =>
    have most := flagOf_bound read
    rcases Nat.le_one_iff_eq_zero_or_eq_one.1 most with is | is
    · exact absurd (BitVec.eq_of_toNat_eq is) zero
    · exact absurd (BitVec.eq_of_toNat_eq is) one

section

variable {h : HandsetId} {reply : List RxChar} {address kind sequence length check : Byte} {payload : List Byte}
  (bytes : reply.map (·.data) = [address, kind, sequence, length] ++ payload ++ [check])

include bytes

theorem judgeReply_of_garbled
    (garbled : (∃ c ∈ reply, rxBad c = true) ∨ check ≠ ([address, kind, sequence, length] ++ payload).foldl (· ^^^ ·) 0 ∨
      address.toNat ≠ h.val + 1 ∨ (sequence ≠ 0 ∧ sequence ≠ 1) ∨
      (kind.toNat, payload.length) ∉ [(0, 0), (1, 7), (2, 1), (3, 0)]) : judgeReply h reply = none := by
  rw [judgeReply_eq bytes]
  split
  next => rfl
  next sound =>
  split
  next => rfl
  next agrees =>
  split
  next => rfl
  next polled =>
    rcases garbled with ⟨c, member, bad⟩ | differs | other | unsound | unknown
    · exact absurd (List.any_eq_true.2 ⟨c, member, bad⟩) sound
    · exact absurd (not_not.1 agrees).symm differs
    · exact absurd other polled
    · rw [flagOf_sequence_none unsound]; rfl
    · have none : readMessage kind.toNat payload = Option.none :=
        Option.not_isSome_iff_eq_none.1 (mt readMessage_isSome_iff.1 unknown)
      rw [none]
      cases flagOf sequence.toNat <;> rfl

/-- A reply that no character, no check byte and no address spoils. -/
theorem judgeReply_of_sound {m : Message} (sound : ∀ c ∈ reply, rxBad c = false)
    (agrees : check = ([address, kind, sequence, length] ++ payload).foldl (· ^^^ ·) 0) (polled : address.toNat = h.val + 1)
    (numbered : sequence = 0 ∨ sequence = 1) (read : readMessage kind.toNat payload = some m) :
    judgeReply h reply = some (decide (sequence = 1), m) := by
  have whole : ¬reply.any rxBad = true := by
    rw [List.any_eq_true]
    rintro ⟨c, member, bad⟩
    rw [sound c member] at bad
    cases bad
  rw [judgeReply_eq bytes, if_neg whole, if_neg (not_not.2 agrees.symm), if_neg (not_not.2 polled), flagOf_sequence numbered,
    read]
  rfl

end

/-! ## The handset that replied (R139) -/

/-- The part once a reply has confirmed a handset: the window is over, its record is `z`, `hs` is on its way, and it is
reported when it had been OFFLINE. -/
def State.replied (s : State) (r : RoomId) (o : Slot) (z : HandsetRecord) (hs : List HandOver) : State :=
  { s.setRoom r
      { s.room r with line := { (s.room r).line with
          slot := none, received := [], records := (s.room r).line.records.set o.handset z
          changed :=
            if ((s.room r).line.records.get o.handset).online then (s.room r).line.changed else some o.handset } } with
    link := if ((s.room r).line.records.get o.handset).online then s.link
      else s.link.hear (s.room r).mask r .handsetChanged
    handed := hs }

theorem State.confirm_eq (s : State) (r : RoomId) (o : Slot) :
    s.confirm r o = s.replied r o (((s.room r).line.records.get o.handset).answered o) s.handed := by
  have same : (s.handset r o.handset).online = ((s.room r).line.records.get o.handset).online := rfl
  unfold State.confirm State.replied
  dsimp only
  rw [same]
  cases ((s.room r).line.records.get o.handset).online with
  | true =>
    simp only [Bool.not_true, Bool.false_eq_true, if_false, if_true, State.modLine, State.modRoom_eq]
    rfl
  | false =>
    simp only [Bool.not_false, Bool.false_eq_true, if_false, if_true, State.modLine, State.modRoom_eq,
      State.reportHandset, State.raise_eq_hear, State.room_setRoom_self, State.setRoom_setRoom, State.setRoom_link]
    rfl

section

variable (s : State) (r : RoomId) (o : Slot) (z : HandsetRecord) (hs : List HandOver)

theorem State.replied_room :
    (s.replied r o z hs).room r =
      { s.room r with line := { (s.room r).line with
          slot := none, received := [], records := (s.room r).line.records.set o.handset z
          changed :=
            if ((s.room r).line.records.get o.handset).online then (s.room r).line.changed else some o.handset } } := by
  rw [State.replied, State.room_mk_rooms, State.room_setRoom_self]

/-- The record of the handset that replied may be changed again. -/
theorem State.replied_modRecord (f : HandsetRecord → HandsetRecord) :
    (s.replied r o z hs).modLine r (RequestLine.modRecord o.handset f) = s.replied r o (f z) hs := by
  rw [State.modLine, State.modRoom_eq, State.replied_room]
  simp only [RequestLine.modRecord, Vector.get_set_self, Vector.set_set]
  simp only [State.replied, State.setRoom, Vector.set_set]

theorem State.replied_forget (who : HandsetId → Bool) :
    (s.replied r o z hs).forgetAnswers r who = s.replied r o z (hs.map (HandOver.forget r who)) := rfl

theorem State.replied_hand (x : HandOver) : (s.replied r o z hs).hand x = s.replied r o z (hs ++ [x]) := rfl

/-! ## A message acted on (R141 to R143) -/

/-- What every new message brings about (R140). -/
theorem State.replied_accept (bit : Bool) :
    ((s.replied r o z hs).forgetAnswers r (· = o.handset)).modLine r
        (RequestLine.modRecord o.handset (HandsetRecord.accept bit)) =
      s.replied r o (z.accept bit) (hs.map (HandOver.forget r fun k => decide (k = o.handset))) := by
  rw [State.replied_forget, State.replied_modRecord]

theorem State.actOn_cancel (bit : Bool) (ticket : Nat) :
    (s.replied r o z hs).actOn r o.handset bit (.cancel ticket) =
      s.replied r o (z.accept bit)
        (hs.map (HandOver.forget r fun k => decide (k = o.handset)) ++ [.cancel ⟨r, o.handset, bit, ticket, true⟩]) := by
  simp only [State.actOn, State.replied_accept, State.replied_hand]

theorem State.actOn_request {song : Nat} (bit duet : Bool) (preset : Option Int) (priority : Bool) (low : 1 ≤ song)
    (high : song ≤ 999999) :
    (s.replied r o z hs).actOn r o.handset bit (.request song duet preset priority) =
      s.replied r o (z.accept bit)
        (hs.map (HandOver.forget r fun k => decide (k = o.handset)) ++
          [.request ⟨r, o.handset, bit, song, duet, preset, priority && o.handset = HandsetId.staff, true⟩]) := by
  have names : songOk song = true := by
    rw [songOk, Bool.and_eq_true, decide_eq_true_eq, decide_eq_true_eq]; exact ⟨low, high⟩
  simp only [State.actOn, State.replied_accept, State.replied_hand, names, if_true]

theorem State.actOn_badSong {song : Nat} (bit duet : Bool) (preset : Option Int) (priority : Bool)
    (none : song = 0 ∨ 999999 < song) :
    (s.replied r o z hs).actOn r o.handset bit (.request song duet preset priority) =
      s.replied r o ((z.accept bit).store (.refused .badSong) bit)
        (hs.map (HandOver.forget r fun k => decide (k = o.handset))) := by
  have unknown : ¬songOk song = true := by
    rw [songOk, Bool.and_eq_true, decide_eq_true_eq, decide_eq_true_eq]; omega
  simp only [State.actOn, State.replied_accept, State.replied_modRecord, unknown, Bool.false_eq_true, if_false]

theorem State.actOn_statusAsk (bit : Bool) :
    (s.replied r o z hs).actOn r o.handset bit .statusAsk =
      s.replied r o ((z.accept bit).store ((s.room r).statusAnswer o.handset) bit)
        (hs.map (HandOver.forget r fun k => decide (k = o.handset))) := by
  have answer (y : HandsetRecord) (gs : List HandOver) :
      ((s.replied r o y gs).room r).statusAnswer o.handset = (s.room r).statusAnswer o.handset := by
    rw [State.replied_room]; rfl
  simp only [State.actOn, State.replied_accept, State.replied_modRecord, answer]

end

/-! ## The obligation -/

theorem exec_handsetReply {s : State} {r : RoomId} {cs : List RxChar} (released : s.link.resetLine = false) :
    exec (.handsetReply r cs) s = .next (s.handsetReply r cs).startUplink :=
  congrArg finish (State.unlessReset_of_released released _)

theorem State.handsetReply_of_whole {s : State} {r : RoomId} {cs reply : List RxChar} {o : Slot}
    (opened : (s.room r).line.slot = some o) (whole : completeReply ((s.room r).line.received ++ cs) = some reply) :
    s.handsetReply r cs = s.takeReply r o reply := by
  simp only [State.handsetReply, opened, whole]

/-- Settles O52, by whether the reply is whole, whether it is garbled, and whether its message is a repeat. -/
theorem handsetRepliesAreJudged : Obligations.HandsetRepliesAreJudged := by
  refine ⟨?_, ?_⟩
  · rintro s r cs ln rfl
    refine ⟨fun idle => congrArg finish ?_, fun o released opened => ?_⟩
    · rcases idle with asserted | idle
      · exact State.unlessReset_of_asserted asserted _
      · have discarded : s.handsetReply r cs = s := by simp only [State.handsetReply, idle]
        rw [discarded, State.unlessReset, ite_self]
    rw [exec_handsetReply released]
    refine ⟨fun more => ?_, ?_⟩
    · simp only [State.handsetReply, opened, more, State.modLine, State.modRoom_eq]
    rintro reply x whole rfl
    rw [State.handsetReply_of_whole opened whole]
    refine ⟨fun garbled => ?_, fun bit m y read new again => ?_⟩
    · have line := RequestLine.failWindow_eq (ln := (s.room r).line) (o := o) false rfl
      simp only [Bool.false_eq_true, false_and, if_false] at line
      simp only [State.takeReply, garbled]
      refine ⟨fun stays => ?_, fun online missed => ?_⟩
      · rw [State.failWindow_of_stays _ stays, line]
      · rw [State.failWindow_of_third _ online missed, line]
    · simp only [State.takeReply, read]
      have answered : ((s.room r).line.records.get o.handset).answered o = y := by
        rw [new, HandsetRecord.answered]
        simp only [Bool.and_eq_true, Bool.not_eq_true']
      rw [State.confirm_eq, answered]
      by_cases idle : m = .idle
      · rw [State.dealWith, if_pos idle]
        simp only [idle, if_true]
        rfl
      · have repeated : ((s.replied r o y s.handed).handset r o.handset).bit = some bit := by
          rw [State.handset, State.replied_room]
          refine (congrArg HandsetRecord.bit (Vector.get_set_self ..)).trans ?_
          rw [new]
          exact again.resolve_left idle
        rw [State.dealWith, if_neg idle, if_pos repeated, State.replied_modRecord]
        simp only [idle, if_false]
        rfl
  · rintro bad rfl
    simp only [← rxBad_eq]
    refine ⟨fun cs => completeReply_of_short, fun before after c head => ⟨fun early => ?_, completeReply_of_whole head⟩, ?_⟩
    · exact early.elim (completeReply_of_bad head) (completeReply_of_partial head)
    · intro h reply address kind sequence length check payload bytes _
      refine ⟨judgeReply_of_garbled bytes, fun sound agrees polled numbered known => ?_⟩
      obtain ⟨m, read⟩ := Option.isSome_iff_exists.1 (readMessage_isSome_iff.2 known)
      exact ⟨m, judgeReply_of_sound bytes sound agrees polled numbered read⟩

/-! ## The answer to a STATUS_ASK (R143) -/

theorem ownPairs_eq (h : HandsetId) (k : Nat) (es : List Entry) :
    ownPairs h (k + 1) es =
      (es.zipIdx k).filterMap fun e => if e.1.owner = h then some (e.1.ticket, e.2 + 1) else none := by
  induction es generalizing k with
  | nil => rfl
  | cons e es ih =>
    rw [ownPairs, List.zipIdx_cons, List.filterMap_cons, ih]
    by_cases own : e.owner = h <;> simp [own]

/-- A new message of a handset that replied (R140). -/
theorem State.takeReply_of_new {s : State} {r : RoomId} {o : Slot} {reply : List RxChar} {bit : Bool} {m : Message}
    (read : judgeReply o.handset reply = some (bit, m)) (acts : m ≠ .idle)
    (new : ((s.room r).line.records.get o.handset).bit ≠ some bit) :
    s.takeReply r o reply =
      (s.replied r o (((s.room r).line.records.get o.handset).answered o) s.handed).actOn r o.handset bit m := by
  have other : ((s.replied r o (((s.room r).line.records.get o.handset).answered o) s.handed).handset r o.handset).bit ≠
      some bit := by
    rw [State.handset, State.replied_room]
    exact (congrArg HandsetRecord.bit (Vector.get_set_self ..)).trans_ne new
  simp only [State.takeReply, read]
  rw [State.confirm_eq, State.dealWith, if_neg acts, if_neg other]

/-- Settles O53, by the message and the song number of a REQUEST. -/
theorem newMessagesAreActedOn : Obligations.NewMessagesAreActedOn := by
  refine ⟨?_, ?_⟩
  · rintro s r cs reply ln o x y bit m rfl released opened rfl new whole read known u rfl
    rw [exec_handsetReply released, State.handsetReply_of_whole opened whole]
    have accepted : (((s.room r).line.records.get o.handset).answered o).accept bit = y := by
      rw [known, HandsetRecord.answered, HandsetRecord.accept]
      simp only [Bool.and_eq_true, Bool.not_eq_true']
    have taken (acts : m ≠ .idle) := State.takeReply_of_new read acts new
    refine ⟨?_, ?_, ?_⟩
    · rintro ticket rfl
      rw [taken nofun, State.actOn_cancel, accepted]
      rfl
    · rintro song duet preset priority rfl
      refine ⟨fun low high => ?_, fun none => ?_⟩
      · have staff : decide (o.handset = HandsetId.staff) = decide (o.handset.val + 1 = 15) :=
          decide_eq_decide.2 HandsetId.eq_staff_iff
        rw [taken nofun, State.actOn_request _ _ _ _ _ _ _ _ _ low high, accepted, staff]
        rfl
      · rw [taken nofun, State.actOn_badSong _ _ _ _ _ _ _ _ _ none, accepted]
        simp only [List.append_nil]
        rfl
    · rintro rfl
      rw [taken nofun, State.actOn_statusAsk, accepted, Room.statusAnswer, ownPairs_eq]
      simp only [List.append_nil]
      rfl
  · intro h reply address kind sequence length check payload bytes sound agrees polled numbered
    have good : ∀ c ∈ reply, rxBad c = false := by
      intro c member
      obtain ⟨parity, stop, overrun⟩ := sound c member
      rw [rxBad_eq, parity, stop, overrun, Bool.xor_self]
      rfl
    have reads {m : Message} (read : readMessage kind.toNat payload = some m) :=
      judgeReply_of_sound bytes good agrees polled numbered read
    refine ⟨?_, ?_, ?_, ?_⟩
    · rintro rfl rfl
      exact reads rfl
    · rintro song2 song1 song0 duet present preset priority rfl rfl
      exact reads (readMessage_request ..)
    · rintro ticket rfl rfl
      exact reads rfl
    · rintro rfl rfl
      exact reads rfl

end Sys2Proof.Machine
end

section
/-! SUPPORT. An evaluation as one passage over the list of lines (R52 to R55): what each line becomes, read from the list
before it. -/

namespace Sys2Proof.Machine

/-! ## Lines found and counted behind a passage that leaves them -/

section

variable {α : Type} {f : α → Option α} {p : α → Bool} (fixed : ∀ a, p a = true → f a = some a)
  (back : ∀ a b, f a = some b → p b = true → p a = true)

include fixed back

theorem any_of_fixed (a : α) : (f a).any p = p a := by
  cases accepted : p a with
  | true => rw [fixed a accepted]; exact accepted
  | false =>
    cases made : f a with
    | none => rfl
    | some b => exact Bool.eq_false_iff.2 fun passes => by simp [back a b made passes] at accepted

theorem find?_filterMap_of_fixed (xs : List α) : (xs.filterMap f).find? p = xs.find? p := by
  simp only [List.find?_filterMap, any_of_fixed fixed back]
  cases found : xs.find? p with
  | none => rfl
  | some a => exact fixed a (List.find?_some found)

theorem any_filterMap_of_fixed (xs : List α) : (xs.filterMap f).any p = xs.any p := by
  rw [List.any_filterMap]
  exact congrArg (List.any xs) (funext fun a => (any_of_fixed fixed back a))

end

/-! ## An occupant moved (R54) -/

section

variable {t preroll linger : Nat} {row : Fin 2} {l k : Line}

theorem Line.onRow_iff : l.onRow = true ↔ l.state ≠ .loaded := decide_eq_true_iff

theorem Line.progress_shown (shown : l.state = .shown) :
    l.progress t linger =
      if t < l.start then some l else if t < l.stop then some { l with state := .singing }
      else if t < l.stop + linger then some { l with state := .done } else none := by
  simp only [Line.progress, shown, true_and]
  split_ifs <;> simp_all <;> omega

theorem Line.progress_singing (singing : l.state = .singing) :
    l.progress t linger =
      if t < l.stop then some l else if t < l.stop + linger then some { l with state := .done } else none := by
  simp only [Line.progress, singing]
  split_ifs <;> simp_all <;> omega

theorem Line.progress_done (done : l.state = .done) :
    l.progress t linger = if t < l.stop + linger then some l else none := by
  simp only [Line.progress, done]
  split_ifs <;> simp_all
  omega

/-! ## A row's candidate shown (R54) -/

/-- The first LOADED line of a row, which may be shown next. -/
def candidate (row : Fin 2) (ls : List Line) : Option Line := ls.find? fun l => l.row = row && l.state = .loaded

/-- What the showing of a row's candidate leaves of a line. -/
def Line.showIf (first : Option Line) (t preroll : Nat) (l : Line) : Line :=
  if first = some l ∧ l.start ≤ t + preroll then { l with state := if l.start ≤ t then .singing else .shown } else l

theorem candidate_some {ls : List Line} (found : candidate row ls = some l) : l.row = row ∧ l.state = .loaded := by
  simpa using List.find?_some found

theorem Line.showIf_of_other {ls : List Line} (other : ¬(l.row = row ∧ l.state = .loaded)) :
    l.showIf (candidate row ls) t preroll = l := if_neg fun first => other (candidate_some first.1)

/-- Among lines that differ, the candidate alone is shown. -/
theorem showCandidate_eq {ls : List Line} (nodup : ls.Nodup) :
    showCandidate row t preroll ls = ls.map (Line.showIf (candidate row ls) t preroll) := by
  induction ls with
  | nil => rfl
  | cons l ls ih =>
    obtain ⟨apart, nodup⟩ := List.nodup_cons.1 nodup
    rw [showCandidate, List.map_cons]
    by_cases first : l.row = row ∧ l.state = .loaded
    · have found : candidate row (l :: ls) = some l := List.find?_cons_of_pos (by simpa using first)
      have others : ls.map (Line.showIf (some l) t preroll) = ls := by
        refine (List.map_congr_left fun k member => ?_).trans (List.map_id ls)
        exact if_neg fun ⟨same, _⟩ => apart (Option.some.inj same ▸ member)
      rw [found, others, if_pos first]
      by_cases due : l.start ≤ t + preroll <;> simp [Line.showIf, due]
    · have behind : candidate row (l :: ls) = candidate row ls := List.find?_cons_of_neg (by simpa using first)
      rw [if_neg first, behind, Line.showIf_of_other first, ih nodup]

/-! ## A row step as one passage (R54) -/

/-- A row of a list keeps an occupant when its lines have been moved. -/
def keepsOccupant (row : Fin 2) (t linger : Nat) (ls : List Line) : Bool :=
  ls.any fun l => l.row = row && l.onRow && (l.progress t linger).isSome

/-- What a row's step leaves of a line of a list. -/
def Line.stepped (row : Fin 2) (t preroll linger : Nat) (ls : List Line) (l : Line) : Option Line :=
  if l.row = row then
    if l.onRow then l.progress t linger
    else if keepsOccupant row t linger ls then some l else some (l.showIf (candidate row ls) t preroll)
  else some l

/-- The occupant that is left is the one moved. -/
theorem occupant_isSome (ls : List Line) :
    (occupant row (moveOccupant row t linger ls)).isSome = keepsOccupant row t linger ls := by
  have moved (l : Line) : (Line.moved row t linger l).any (fun k => k.row = row && k.onRow) =
      (l.row = row && l.onRow && (l.progress t linger).isSome) := by
    by_cases here : l.row = row ∧ l.onRow = true
    · rw [Line.moved, if_pos here]
      cases made : l.progress t linger with
      | none => simp
      | some k =>
        obtain ⟨same, on⟩ := Line.progress_some made here.2
        have rows : k.unstated.row = l.unstated.row := congrArg Line.row same
        replace rows : k.row = l.row := rows
        simp [rows, on, here]
    · rw [Line.moved, if_neg here]
      simp only [not_and, Bool.not_eq_true] at here
      by_cases row : l.row = row <;> simp [row, here]
  have found (ks : List Line) (p : Line → Bool) : (ks.find? p).isSome = ks.any p := by
    rw [Bool.eq_iff_iff, List.find?_isSome, List.any_eq_true]
  rw [occupant, found, moveOccupant_eq, List.any_filterMap, keepsOccupant]
  exact congrArg (List.any ls) (funext moved)

theorem candidate_moveOccupant (ls : List Line) : candidate row (moveOccupant row t linger ls) = candidate row ls := by
  rw [moveOccupant_eq]
  refine find?_filterMap_of_fixed (fun l first => ?_) (fun l k made first => ?_) ls
  · exact if_neg fun occupies => by simp [Line.onRow] at occupies first; exact occupies.2 first.2
  · by_cases here : l.row = row ∧ l.onRow = true
    · rw [Line.moved, if_pos here] at made
      have on := Line.onRow_iff.1 (Line.progress_some made here.2).2
      simp [on] at first
    · rw [Line.moved, if_neg here] at made
      rwa [Option.some.inj made]

theorem rowStep_eq {ls : List Line} (nodup : (ls.map (·.id)).Nodup) :
    rowStep row t preroll linger ls = ls.filterMap (Line.stepped row t preroll linger ls) := by
  have among : LinesAmong (moveOccupant row t linger ls) ls := by
    rw [moveOccupant_eq]
    exact linesAmong_filterMap (fun l l' made => (Line.moved_some row t linger made).1) ls
  rw [rowStep]
  simp only [occupant_isSome]
  by_cases occupied : keepsOccupant row t linger ls = true
  · rw [if_pos occupied, moveOccupant_eq]
    refine List.filterMap_congr fun l _ => ?_
    unfold Line.moved Line.stepped
    simp only [occupied, if_true, ite_and]
  · rw [if_neg occupied, showCandidate_eq (List.Nodup.of_map _ (among.ids_nodup nodup)), candidate_moveOccupant,
      moveOccupant_eq, List.map_filterMap]
    refine List.filterMap_congr fun l member => ?_
    unfold Line.moved Line.stepped
    by_cases here : l.row = row
    · by_cases on : l.onRow = true
      · have gone : l.progress t linger = none := by
          by_contra left
          exact occupied (List.any_eq_true.2 ⟨l, member, by simp [here, on, Option.isSome_iff_ne_none, left]⟩)
        simp [here, on, gone]
      · simp [here, on, occupied]
    · rw [if_neg fun both => here both.1, if_neg here, Option.map_some, Line.showIf_of_other fun both => here both.1]

/-! ## Both rows' steps as one passage -/

/-- A step leaves a line on its row. -/
theorem Line.stepped_row {ls : List Line} (made : l.stepped row t preroll linger ls = some k) : k.row = l.row := by
  unfold Line.stepped at made
  split at made
  next =>
    split at made
    next on =>
      have same : k.unstated.row = l.unstated.row := congrArg Line.row (Line.progress_some made on).1
      exact same
    next =>
      split at made
      · rw [← Option.some.inj made]
      · rw [← Option.some.inj made, Line.showIf]
        split <;> rfl
  next => rw [← Option.some.inj made]

theorem Line.stepped_of_other {ls : List Line} (other : l.row ≠ row) : l.stepped row t preroll linger ls = some l :=
  if_neg other

theorem Line.stepped_congr {ls ks : List Line} (occupied : keepsOccupant row t linger ks = keepsOccupant row t linger ls)
    (first : candidate row ks = candidate row ls) : l.stepped row t preroll linger ks = l.stepped row t preroll linger ls := by
  unfold Line.stepped
  rw [occupied, first]

/-- The step of one row leaves what is found on another. -/
theorem any_find?_stepped {other : Fin 2} (apart : other ≠ row) {p : Line → Bool} (own : ∀ k, p k = true → k.row = row)
    (ls ks : List Line) :
    (ls.filterMap (Line.stepped other t preroll linger ks)).any p = ls.any p ∧
      (ls.filterMap (Line.stepped other t preroll linger ks)).find? p = ls.find? p := by
  have fixed (k : Line) (here : p k = true) : k.stepped other t preroll linger ks = some k :=
    Line.stepped_of_other ((own k here).trans_ne apart.symm)
  have back (k j : Line) (made : k.stepped other t preroll linger ks = some j) (here : p j = true) : p k = true := by
    have row := (Line.stepped_row made).symm.trans (own j here)
    rw [Line.stepped_of_other (row.trans_ne apart.symm)] at made
    rwa [Option.some.inj made]
  exact ⟨any_filterMap_of_fixed fixed back ls, find?_filterMap_of_fixed fixed back ls⟩

theorem Line.stepped_filterMap {other : Fin 2} (apart : other ≠ row) (ls : List Line) :
    l.stepped row t preroll linger (ls.filterMap (Line.stepped other t preroll linger ls)) = l.stepped row t preroll linger ls :=
  Line.stepped_congr
    (any_find?_stepped apart (fun k here => by simp only [Bool.and_eq_true, decide_eq_true_eq] at here; exact here.1.1) ls ls).1
    (any_find?_stepped apart (fun k here => by simp only [Bool.and_eq_true, decide_eq_true_eq] at here; exact here.1) ls ls).2

/-- An evaluation as one passage: overdue lines leave, and each other takes its own row's step (R53, R54). -/
theorem Lyrics.evaluate_lines {y : Lyrics} (nodup : (y.lines.map (·.id)).Nodup) :
    (y.evaluate t preroll linger).lines = y.lines.filterMap fun l =>
      if l.overdue t then none
      else l.stepped l.row t preroll linger (y.lines.filter fun k => !k.overdue t) := by
  have kept : ((y.lines.filter fun k => !k.overdue t).map (·.id)).Nodup :=
    LinesAmong.ids_nodup (.of_sublist List.filter_sublist) nodup
  have stepped := (rowStep_reduces 0 t preroll linger (y.lines.filter fun k => !k.overdue t)).1.ids_nodup kept
  show rowStep 1 t preroll linger (rowStep 0 t preroll linger (y.lines.filter fun k => !k.overdue t)) = _
  rw [rowStep_eq stepped, rowStep_eq kept, List.filterMap_filterMap, List.filterMap_filter]
  refine List.filterMap_congr fun l _ => ?_
  cases overdue : l.overdue t with
  | true => rfl
  | false =>
    simp only [Bool.not_false, Bool.false_eq_true, if_true, if_false]
    rcases (by omega : l.row = 0 ∨ l.row = 1) with here | here
    · rw [here]
      cases made : l.stepped 0 t preroll linger (y.lines.filter fun k => !k.overdue t) with
      | none => rfl
      | some k =>
        have row : k.row ≠ 1 := by rw [Line.stepped_row made, here]; decide
        exact Line.stepped_of_other row
    · rw [Line.stepped_of_other (l := l) (row := 0) (by rw [here]; decide), here]
      exact Line.stepped_filterMap (by decide) _

theorem Line.overdue_iff : l.overdue t = true ↔ l.state = .loaded ∧ l.stop ≤ t := by
  rw [Line.overdue, Bool.and_eq_true, decide_eq_true_eq, decide_eq_true_eq]

/-- No occupant is overdue. -/
theorem keepsOccupant_filter (ls : List Line) :
    keepsOccupant row t linger (ls.filter fun k => !k.overdue t) = keepsOccupant row t linger ls := by
  rw [keepsOccupant, List.any_filter, keepsOccupant]
  refine congrArg (List.any ls) (funext fun k => ?_)
  by_cases loaded : k.state = .loaded
  · simp [Line.onRow, loaded]
  · simp [Line.overdue, loaded]

theorem candidate_filter (ls : List Line) :
    candidate row (ls.filter fun k => !k.overdue t) =
      ls.find? fun k => k.row = row && k.state = .loaded && t < k.stop := by
  rw [candidate, List.find?_filter]
  refine congrArg (fun p => List.find? p ls) (funext fun k => ?_)
  by_cases loaded : k.state = .loaded
  · by_cases ended : k.stop ≤ t
    · simp [Line.overdue, loaded, ended]
    · simp [Line.overdue, loaded, ended, not_le.1 ended]
  · simp [loaded]

end

/-! ## The obligation -/

theorem HandOver.lyricsOf_self (r : RoomId) (x : Bool) : HandOver.lyricsOf r (.toLyrics r x) = some x := if_pos rfl

theorem HandOver.lyricsOf_eq_none {r : RoomId} {hs : List HandOver} (absent : ∀ x, HandOver.toLyrics r x ∉ hs) :
    ∀ y ∈ hs, HandOver.lyricsOf r y = none := by
  intro y member
  cases y with
  | toLyrics q x => exact if_neg fun same : q = r => absent x (same ▸ member)
  | _ => rfl

theorem exec_evaluation_first {s : State} {r : RoomId} {jump : Bool} {before rest : List HandOver}
    (first : ∀ x, HandOver.toLyrics r x ∉ before) :
    exec (.evaluation r) { s with handed := before ++ .toLyrics r jump :: rest } =
      .next (({ s with handed := before ++ rest }).evaluationTaken r jump).startUplink :=
  congrArg finish (State.takeHanded_of_first (HandOver.lyricsOf_eq_none first) (HandOver.lyricsOf_self r jump) _)

/-- Settles O36, by what each line becomes in one passage over the list. -/
theorem evaluationBringsLinesUpToDate : Obligations.EvaluationBringsLinesUpToDate := by
  refine ⟨fun s r jump before rest first => ?_, State.evaluate_eq, ?_⟩
  · rw [exec_evaluation_first first]
    refine ⟨fun evaluates => ?_, fun idle still => ?_⟩
    · exact congrArg (fun u : State => Host.Outcome.next u.startUplink) (if_pos evaluates)
    · refine congrArg (fun u : State => Host.Outcome.next u.startUplink) (if_neg ?_)
      rintro (playing | ⟨paused, jumped⟩)
      · exact idle playing
      · rw [still paused] at jumped; cases jumped
  · intro y t preroll linger moved rows nodup moves
    have progress (l : Line) (on : l.state ≠ .loaded) : moved l = l.progress t linger := by
      rw [moves]
      cases state : l.state with
      | loaded => exact absurd state on
      | shown => rw [Line.progress_shown state]; simp only [state]
      | singing => rw [Line.progress_singing state]; simp only [state]
      | done => rw [Line.progress_done state]; simp only [state]
    refine ⟨(y.evaluate_reduces t preroll linger).rows rows, rfl, rfl, ?_⟩
    rw [Lyrics.evaluate_lines nodup]
    refine List.filterMap_congr fun l _ => ?_
    by_cases on : l.state = .loaded
    · rw [if_neg (not_not.2 on)]
      by_cases ended : l.stop ≤ t
      · rw [if_pos (Line.overdue_iff.2 ⟨on, ended⟩), if_pos ended]
      · have occupied : keepsOccupant l.row t linger y.lines =
            y.lines.any fun k => k.row = l.row && k.state ≠ .loaded && (moved k).isSome := by
          refine congrArg (List.any y.lines) (funext fun k => ?_)
          by_cases loaded : k.state = .loaded
          · simp [Line.onRow, loaded]
          · rw [progress k loaded]; rfl
        have idle : ¬l.onRow = true := fun occupies => Line.onRow_iff.1 occupies on
        rw [if_neg fun overdue => ended (Line.overdue_iff.1 overdue).2, if_neg ended, Line.stepped, if_pos rfl, if_neg idle,
          keepsOccupant_filter, candidate_filter, ← occupied, Line.showIf]
        have state : (if l.start ≤ t then LineState.singing else .shown) = if t < l.start then .shown else .singing := by
          rw [← ite_not]; exact if_congr not_le rfl rfl
        by_cases stays : keepsOccupant l.row t linger y.lines = true
        · rw [if_pos stays, if_pos (.inl stays)]
        · rw [if_neg stays, state, ← apply_ite some, ← ite_not]
          refine congrArg some (if_congr ?_ rfl rfl)
          rw [not_and_or, not_le]
          exact (or_iff_right stays).symm
    · rw [if_pos on, if_neg fun overdue => on (Line.overdue_iff.1 overdue).1, Line.stepped, if_pos rfl,
        if_pos (Line.onRow_iff.2 on), progress l on]

end Sys2Proof.Machine
end

section
/-! SUPPORT. LYRIC_LINE: when the record of a line is well formed (R45), and how a line joins the list or replaces one
(R48, R49). -/

namespace Sys2Proof.Machine

/-! ## Well-formed syllables (R45) -/

theorem range_succ_map {α : Type} (k : Nat) (f : Nat → α) :
    (List.range (k + 1)).map f = f 0 :: (List.range k).map fun i => f (i + 1) := by
  rw [List.range_succ_eq_map, List.map_cons, List.map_map]; rfl

theorem partitions_iff {n next k : Nat} {f : Nat → Syllable} :
    partitions n next ((List.range (k + 1)).map f) = true ↔
      (f 0).first = next ∧ (∀ i < k + 1, 1 ≤ (f i).count) ∧
        (∀ i, i + 1 < k + 1 → (f (i + 1)).first = (f i).first + (f i).count) ∧ (f k).first + (f k).count = n := by
  induction k generalizing f next with
  | zero =>
    rw [range_succ_map]
    simp only [List.range_zero, List.map_nil, partitions, Bool.and_eq_true, decide_eq_true_eq]
    constructor
    · rintro ⟨⟨rfl, some⟩, rfl⟩
      exact ⟨rfl, fun i less => (by omega : 0 = i) ▸ some, fun i less => by omega, rfl⟩
    · rintro ⟨rfl, some, -, rfl⟩
      exact ⟨⟨rfl, some 0 (by omega)⟩, rfl⟩
  | succ k ih =>
    rw [range_succ_map, partitions, Bool.and_eq_true, Bool.and_eq_true, decide_eq_true_eq, decide_eq_true_eq, ih]
    constructor
    · rintro ⟨⟨rfl, some⟩, first, counts, follow, last⟩
      refine ⟨rfl, fun i less => ?_, fun i less => ?_, last⟩
      · cases i with
        | zero => exact some
        | succ i => exact counts i (by omega)
      · cases i with
        | zero => exact first
        | succ i => exact follow i (by omega)
    · rintro ⟨rfl, counts, follow, last⟩
      exact ⟨⟨rfl, counts 0 (by omega)⟩, follow 0 (by omega), fun i less => counts (i + 1) (by omega),
        fun i less => follow (i + 1) (by omega), last⟩

theorem onsetsOrdered_iff {stop low k : Nat} {f : Nat → Syllable} :
    onsetsOrdered stop low ((List.range k).map f) = true ↔
      (∀ i < k, low ≤ (f i).onset ∧ (f i).onset < stop) ∧ ∀ i, i + 1 < k → (f i).onset ≤ (f (i + 1)).onset := by
  induction k generalizing f low with
  | zero => exact iff_of_true rfl ⟨fun i less => absurd less (Nat.not_lt_zero i), fun i less => absurd less (Nat.not_lt_zero _)⟩
  | succ k ih =>
    rw [range_succ_map, onsetsOrdered, Bool.and_eq_true, Bool.and_eq_true, decide_eq_true_eq, decide_eq_true_eq, ih]
    constructor
    · rintro ⟨⟨from_, to_⟩, range, rising⟩
      refine ⟨fun i less => ?_, fun i less => ?_⟩
      · cases i with
        | zero => exact ⟨from_, to_⟩
        | succ i => obtain ⟨above, below⟩ := range i (by omega); exact ⟨from_.trans above, below⟩
      · cases i with
        | zero => exact (range 0 (by omega)).1
        | succ i => exact rising i (by omega)
    · rintro ⟨range, rising⟩
      have above (i : Nat) (less : i < k) : (f 0).onset ≤ (f (i + 1)).onset := by
        induction i with
        | zero => exact rising 0 (by omega)
        | succ i ih => exact (ih (by omega)).trans (rising (i + 1) (by omega))
      exact ⟨range 0 (by omega), fun i less => ⟨above i less, (range (i + 1) (by omega)).2⟩,
        fun i less => rising (i + 1) (by omega)⟩

/-! ## A line read from its record (R45, 11.2) -/

theorem partOf_of_named {n : Nat} (low : 1 ≤ n) (high : n ≤ 3) :
    partOf n = some (if n = 1 then .a else if n = 2 then .b else .both) := by
  interval_cases n <;> rfl

theorem partOf_bound {n : Nat} {p : Part} (named : partOf n = some p) : 1 ≤ n ∧ n ≤ 3 := by
  unfold partOf at named
  split at named
  · decide
  · decide
  · decide
  · cases named

/-- The record of a line is well formed (R45). -/
def LineWf (bs : List Byte) : Prop :=
  bs.length = 14 + 2 * u8 bs 12 + 8 * u8 bs 13 ∧ u8 bs 2 ≤ 1 ∧ 1 ≤ u8 bs 3 ∧ u8 bs 3 ≤ 3 ∧ u32 bs 4 < u32 bs 8 ∧
    u32 bs 8 ≤ 1803000 ∧ 1 ≤ u8 bs 12 ∧ u8 bs 12 ≤ 48 ∧ (∀ i < u8 bs 12, u16 bs (14 + 2 * i) ≤ 1023) ∧
    1 ≤ u8 bs 13 ∧ u8 bs 13 ≤ 24 ∧ u8 bs (14 + 2 * u8 bs 12 + 8 * 0) = 0 ∧
    (∀ i < u8 bs 13, 1 ≤ u8 bs (15 + 2 * u8 bs 12 + 8 * i)) ∧
    (∀ i, i + 1 < u8 bs 13 → u8 bs (14 + 2 * u8 bs 12 + 8 * (i + 1)) =
      u8 bs (14 + 2 * u8 bs 12 + 8 * i) + u8 bs (15 + 2 * u8 bs 12 + 8 * i)) ∧
    u8 bs (14 + 2 * u8 bs 12 + 8 * (u8 bs 13 - 1)) + u8 bs (15 + 2 * u8 bs 12 + 8 * (u8 bs 13 - 1)) = u8 bs 12 ∧
    (∀ i < u8 bs 13, u32 bs 4 ≤ u32 bs (16 + 2 * u8 bs 12 + 8 * i) ∧ u32 bs (16 + 2 * u8 bs 12 + 8 * i) < u32 bs 8) ∧
    ∀ i, i + 1 < u8 bs 13 → u32 bs (16 + 2 * u8 bs 12 + 8 * i) ≤ u32 bs (16 + 2 * u8 bs 12 + 8 * (i + 1))

/-- The syllable of a line's record, its fields at the offsets of 11.2. -/
def lineSyllable (bs : List Byte) (i : Nat) : Syllable :=
  ⟨u8 bs (14 + 2 * u8 bs 12 + 8 * i), u8 bs (15 + 2 * u8 bs 12 + 8 * i), u32 bs (16 + 2 * u8 bs 12 + 8 * i),
    u16 bs (20 + 2 * u8 bs 12 + 8 * i)⟩

theorem readSyllable_eq (bs : List Byte) (i : Nat) : readSyllable bs (14 + 2 * u8 bs 12 + 8 * i) = lineSyllable bs i := by
  have one : 14 + 2 * u8 bs 12 + 8 * i + 1 = 15 + 2 * u8 bs 12 + 8 * i := by omega
  have two : 14 + 2 * u8 bs 12 + 8 * i + 2 = 16 + 2 * u8 bs 12 + 8 * i := by omega
  have six : 14 + 2 * u8 bs 12 + 8 * i + 6 = 20 + 2 * u8 bs 12 + 8 * i := by omega
  rw [readSyllable, lineSyllable, one, two, six]

theorem syllables_wf_iff {bs : List Byte} (some : 1 ≤ u8 bs 13) :
    (partitions (u8 bs 12) 0 ((List.range (u8 bs 13)).map (lineSyllable bs)) = true ∧
      onsetsOrdered (u32 bs 8) (u32 bs 4) ((List.range (u8 bs 13)).map (lineSyllable bs)) = true) ↔
      u8 bs (14 + 2 * u8 bs 12 + 8 * 0) = 0 ∧
      (∀ i < u8 bs 13, 1 ≤ u8 bs (15 + 2 * u8 bs 12 + 8 * i)) ∧
      (∀ i, i + 1 < u8 bs 13 → u8 bs (14 + 2 * u8 bs 12 + 8 * (i + 1)) =
        u8 bs (14 + 2 * u8 bs 12 + 8 * i) + u8 bs (15 + 2 * u8 bs 12 + 8 * i)) ∧
      u8 bs (14 + 2 * u8 bs 12 + 8 * (u8 bs 13 - 1)) + u8 bs (15 + 2 * u8 bs 12 + 8 * (u8 bs 13 - 1)) = u8 bs 12 ∧
      (∀ i < u8 bs 13, u32 bs 4 ≤ u32 bs (16 + 2 * u8 bs 12 + 8 * i) ∧ u32 bs (16 + 2 * u8 bs 12 + 8 * i) < u32 bs 8) ∧
      ∀ i, i + 1 < u8 bs 13 → u32 bs (16 + 2 * u8 bs 12 + 8 * i) ≤ u32 bs (16 + 2 * u8 bs 12 + 8 * (i + 1)) := by
  obtain ⟨k, count⟩ := Nat.exists_eq_add_of_le' some
  rw [count, partitions_iff, onsetsOrdered_iff, Nat.add_sub_cancel, and_assoc, and_assoc, and_assoc]
  rfl

/-- The line of a well-formed record, LOADED. -/
def lineOf (bs : List Byte) : Line :=
  { id := u16 bs 0, row := if u8 bs 2 = 0 then 0 else 1
    part := if u8 bs 3 = 1 then .a else if u8 bs 3 = 2 then .b else .both
    start := u32 bs 4, stop := u32 bs 8
    glyphs := (List.range (u8 bs 12)).map fun i => u16 bs (14 + 2 * i)
    syllables := (List.range (u8 bs 13)).map (lineSyllable bs), state := .loaded }

theorem glyphCodes_iff {bs : List Byte} {n : Nat} :
    ((List.range n).map fun i => u16 bs (14 + 2 * i)).all (· ≤ 1023) = true ↔ ∀ i < n, u16 bs (14 + 2 * i) ≤ 1023 := by
  rw [List.all_map, List.all_eq_true]
  exact ⟨fun all i less => of_decide_eq_true (all i (List.mem_range.2 less)),
    fun all i member => decide_eq_true (all i (List.mem_range.1 member))⟩

theorem readLine_of_wf {bs : List Byte} (wf : LineWf bs) : readLine bs = some (lineOf bs) := by
  obtain ⟨length, row, low, high, before, most, someGlyph, glyphs, codes, someSyllable, syllables, ordered⟩ := wf
  obtain ⟨parts, onsets⟩ := (syllables_wf_iff someSyllable).2 ordered
  simp only [readLine, partOf_of_named low high, readSyllable_eq]
  rw [if_pos]
  · rfl
  · refine ⟨by omega, length, row, before, most, someGlyph, glyphs, glyphCodes_iff.2 codes, someSyllable, syllables, parts,
      onsets⟩

theorem readLine_of_not_wf {bs : List Byte} (malformed : ¬LineWf bs) : readLine bs = none := by
  cases part : partOf (u8 bs 3) with
  | none => simp only [readLine, part]
  | some p =>
    obtain ⟨low, high⟩ := partOf_bound part
    simp only [readLine, part, readSyllable_eq]
    refine if_neg fun ⟨_, length, row, before, most, someGlyph, glyphs, codes, someSyllable, syllables, ordered⟩ =>
      malformed ?_
    refine ⟨length, row, low, high, before, most, someGlyph, glyphs, glyphCodes_iff.1 codes, someSyllable, syllables,
      (syllables_wf_iff someSyllable).1 ordered⟩

/-! ## The line taken in (R46 to R49) -/

theorem decide_le_eq (a b : Nat) : decide (a ≤ b) = !decide (b < a) := by
  rw [← decide_not, decide_eq_decide, not_lt]

theorem notBefore_map {α : Type} (start : Nat) (f : α → Nat) (o : Option α) :
    notBefore start (o.map f) = !o.any (start < f ·) := by
  cases o with
  | none => rfl
  | some a => exact decide_le_eq ..

theorem Lyrics.newInOrder_iff {y : Lyrics} {l : Line} :
    (!y.newInOrder l) = true ↔
      y.lastLoaded.any (l.start < ·.start) = true ∨ y.lines.getLast?.any (l.start < ·.start) = true := by
  rw [Lyrics.newInOrder, notBefore_map, notBefore_map, Bool.not_and, Bool.not_not, Bool.not_not, Bool.or_eq_true]

/-- Behind lines of other ids, a replacement is ordered by its neighbours (R49). -/
theorem replacementInOrder_iff {l old : Line} {before after : List Line} (others : ∀ x ∈ before, x.id ≠ l.id)
    (named : old.id = l.id) :
    (!replacementInOrder l none (before ++ old :: after)) = true ↔
      before.getLast?.any (l.start < ·.start) = true ∨ after.head?.any (·.start < l.start) = true := by
  have next : (after.head?.map (·.start)).all (l.start ≤ ·) = !after.head?.any (·.start < l.start) := by
    cases after.head? with
    | none => rfl
    | some a => exact decide_le_eq ..
  rw [replacementInOrder_split others named, Option.or_none, notBefore_map, next, Bool.not_and, Bool.not_not, Bool.not_not,
    Bool.or_eq_true]

section

variable {s : State} {r : RoomId} {args : List Byte}

/-- In PLAYING the lines are evaluated with the one let in (R52). -/
theorem State.acceptLine_eq (f : Lyrics → Lyrics) :
    s.acceptLine r f =
      (fun u : State => if (s.room r).phase = .playing then u.evaluate r else u)
        (s.setRoom r { s.room r with lyrics := f (s.room r).lyrics }) := by
  simp only [State.acceptLine, State.modRoom_eq, State.room_setRoom_self]

theorem State.lyricLine_of_closed (closed : (s.room r).phase.songOpen = false) : s.lyricLine r args = (s, .busy) := by
  rw [State.lyricLine, closed]; rfl

theorem State.lyricLine_of_malformed (opened : (s.room r).phase.songOpen = true) (malformed : ¬LineWf args) :
    s.lyricLine r args = (s, .badRecord) := by
  simp only [State.lyricLine, opened, Bool.not_true, Bool.false_eq_true, if_false, readLine_of_not_wf malformed]

theorem State.lyricLine_of_new {l : Line} (opened : (s.room r).phase.songOpen = true) (read : readLine args = some l)
    (absent : (s.room r).lyrics.lines.find? (fun x => x.id = l.id) = none) :
    s.lyricLine r args =
      if (!(s.room r).lyrics.newInOrder l) = true then (s, .order)
      else if (!(s.lineFits r && s.syllablesFit r l.syllables.length 0)) = true then (s, .noSpace)
      else (s.acceptLine r (Lyrics.addLine l.clamped), l.loadStatus) := by
  simp only [State.lyricLine, opened, Bool.not_true, Bool.false_eq_true, if_false, read, absent]

theorem State.lyricLine_of_held {l old : Line} (opened : (s.room r).phase.songOpen = true) (read : readLine args = some l)
    (held : (s.room r).lyrics.lines.find? (fun x => x.id = l.id) = some old) :
    s.lyricLine r args =
      if old.onRow = true then (s, .locked)
      else if (!replacementInOrder l none (s.room r).lyrics.lines) = true then (s, .order)
      else if (!s.syllablesFit r l.syllables.length old.syllables.length) = true then (s, .noSpace)
      else (s.acceptLine r (Lyrics.replaceLine l.clamped), l.loadStatus) := by
  simp only [State.lyricLine, opened, Bool.not_true, Bool.false_eq_true, if_false, read, held]

end

/-- What a status answered and a state left make of a branch. -/
theorem answer_ite {c : Prop} [Decidable c] {x y : State × Status} (b tag : Byte) (code : Nat) :
    ((if c then x else y).1.answer ⟨tag, b, (if c then x else y).2, code, []⟩) =
      if c then x.1.answer ⟨tag, b, x.2, code, []⟩ else y.1.answer ⟨tag, b, y.2, code, []⟩ := by
  split <;> rfl

/-- Settles O18, by whether a song is open, whether the record is well formed, and whether its id is held. -/
theorem lyricLineLoaded : Obligations.LyricLineLoaded := by
  rintro s b tag r args byte two four n k start stop first count onset wellFormed credit room rfl rfl rfl rfl rfl rfl rfl
    rfl rfl rfl wf
  replace wf : wellFormed ↔ LineWf args := wf
  have carried : exec (.lyricLine b tag args) s =
      .next ((s.lyricLine r args).1.answer ⟨tag, b, (s.lyricLine r args).2, 49, []⟩).startUplink :=
    finish_command_room .lyricLine credit room rfl
  refine ⟨fun closed => ?_, fun opened malformed => ?_, ?_⟩
  · rw [carried, State.lyricLine_of_closed closed]
  · rw [carried, State.lyricLine_of_malformed opened (mt wf.2 malformed)]
  rintro l l' opened good own rfl
  have read : readLine args = some l := own ▸ readLine_of_wf (wf.1 good)
  rw [carried]
  refine ⟨fun absent => ?_, fun before after old lines others named => ?_⟩
  · rw [State.lyricLine_of_new opened read absent, answer_ite, answer_ite]
    refine congrArg (fun u : State => Host.Outcome.next u.startUplink) (if_congr Lyrics.newInOrder_iff rfl ?_)
    rw [← ite_not]
    refine if_congr ?_ ?_ rfl
    · rw [Bool.not_eq_true', Bool.not_eq_false, Bool.and_eq_true, State.lineFits_iff, State.syllablesFit_iff, and_assoc]
      rfl
    · rw [State.acceptLine_eq]
      rfl
  · have held : (s.room r).lyrics.lines.find? (fun x => x.id = l.id) = some old := by
      rw [lines, List.find?_append, List.find?_eq_none.2 fun x member => by simpa using others x member, Option.none_or,
        List.find?_cons_of_pos (by simpa using named)]
    have order := replacementInOrder_iff (after := after) others named
    rw [← lines] at order
    rw [State.lyricLine_of_held opened read held, answer_ite, answer_ite, answer_ite]
    refine congrArg (fun u : State => Host.Outcome.next u.startUplink)
      (if_congr Line.onRow_iff rfl (if_congr order rfl ?_))
    rw [← ite_not]
    refine if_congr ?_ ?_ rfl
    · rw [Bool.not_eq_true', Bool.not_eq_false, State.syllablesFit_iff]
      rfl
    · rw [State.acceptLine_eq]
      rfl

end Sys2Proof.Machine
end

section
/-! SUPPORT. NOTE_EVENTS: the events of a cell read (R114), and what their loading in order leaves of a note list (R114,
R115). -/

namespace Sys2Proof.Machine

/-! ## Events read from a cell (R114, 11.2) -/

theorem u32_eq (bs : List Byte) (i : Nat) :
    u32 bs i = 16777216 * u8 bs i + 65536 * u8 bs (i + 1) + 256 * u8 bs (i + 2) + u8 bs (i + 3) := by
  have next : i + 2 + 1 = i + 3 := rfl
  simp only [u32, u16, next]
  omega

/-- The event `k` of a cell is well formed. -/
def EventWf (bs : List Byte) (k : Nat) : Prop :=
  u32 bs (10 * k + 1) < u32 bs (10 * k + 5) ∧ u32 bs (10 * k + 5) ≤ 1803000 ∧ u8 bs (10 * k + 9) ≤ 127 ∧
    1 ≤ u8 bs (10 * k + 10) ∧ u8 bs (10 * k + 10) ≤ 3

/-- The fields of the event `k` of a cell. -/
def eventOf (bs : List Byte) (k : Nat) : NoteEvent :=
  { start := u32 bs (10 * k + 1), stop := u32 bs (10 * k + 5), number := u8 bs (10 * k + 9)
    part := if u8 bs (10 * k + 10) = 1 then .a else if u8 bs (10 * k + 10) = 2 then .b else .both }

theorem readNoteEvent_eq (bs : List Byte) (k : Nat) :
    readNoteEvent bs (1 + 10 * k) =
      (partOf (u8 bs (10 * k + 10))).bind fun part =>
        if u32 bs (10 * k + 1) < u32 bs (10 * k + 5) ∧ u32 bs (10 * k + 5) ≤ Config.songTimeMax ∧ u8 bs (10 * k + 9) ≤ 127 then
          some ⟨u32 bs (10 * k + 1), u32 bs (10 * k + 5), u8 bs (10 * k + 9), part⟩
        else none := by
  rw [Nat.add_comm 1]
  rfl

theorem readNoteEvent_of_wf {bs : List Byte} {k : Nat} (wf : EventWf bs k) :
    readNoteEvent bs (1 + 10 * k) = some (eventOf bs k) := by
  obtain ⟨before, most, number, low, high⟩ := wf
  rw [readNoteEvent_eq, partOf_of_named low high]
  exact if_pos ⟨before, most, number⟩

theorem readNoteEvent_of_not_wf {bs : List Byte} {k : Nat} (malformed : ¬EventWf bs k) :
    readNoteEvent bs (1 + 10 * k) = none := by
  rw [readNoteEvent_eq]
  cases part : partOf (u8 bs (10 * k + 10)) with
  | none => rfl
  | some p =>
    obtain ⟨low, high⟩ := partOf_bound part
    exact if_neg fun ⟨before, most, number⟩ => malformed ⟨before, most, number, low, high⟩

/-- A cell of events is well formed (R114). -/
def EventsWf (bs : List Byte) : Prop :=
  bs.length = 1 + 10 * u8 bs 0 ∧ 1 ≤ u8 bs 0 ∧ u8 bs 0 ≤ 16 ∧ ∀ k < u8 bs 0, EventWf bs k

theorem readNoteEvents_of_wf {bs : List Byte} (wf : EventsWf bs) :
    readNoteEvents bs = some ((List.range (u8 bs 0)).map (eventOf bs)) := by
  obtain ⟨length, low, high, each⟩ := wf
  refine (if_pos ⟨length, low, high⟩).trans (mapM_of_forall fun k member => ?_)
  exact readNoteEvent_of_wf (each k (List.mem_range.1 member))

theorem readNoteEvents_of_not_wf {bs : List Byte} (malformed : ¬EventsWf bs) : readNoteEvents bs = none := by
  by_cases size : bs.length = 1 + 10 * u8 bs 0 ∧ 1 ≤ u8 bs 0 ∧ u8 bs 0 ≤ 16
  · refine (if_pos size).trans (mapM_of_exists ?_)
    by_contra! each
    refine malformed ⟨size.1, size.2.1, size.2.2, fun k less => ?_⟩
    by_contra bad
    exact each k (List.mem_range.2 less) (readNoteEvent_of_not_wf bad)
  · exact if_neg size

/-! ## Events loaded in order (R114, R115) -/

theorem Part.ofA_eq (p : Part) : p.ofA = decide (p ≠ .b) := by cases p <;> rfl
theorem Part.ofB_eq (p : Part) : p.ofB = decide (p ≠ .a) := by cases p <;> rfl

section

variable {parts : PerMic MicPart} {y : Melody}

/-- A melody with events loaded, whatever their order. -/
def Melody.addEach (parts : PerMic MicPart) (y : Melody) (es : List NoteEvent) : Melody := es.foldl (Melody.add parts) y

theorem Melody.addEach_concat (es : List NoteEvent) (e : NoteEvent) :
    y.addEach parts (es ++ [e]) = (y.addEach parts es).add parts e := by
  rw [Melody.addEach, List.foldl_append]; rfl

/-- An event that fails the order check behind those before it refuses the cell. -/
theorem Melody.addAll_of_late {before after : List NoteEvent} {e : NoteEvent}
    (late : ¬(y.addEach parts before).inOrder e = true) : y.addAll parts (before ++ e :: after) = none := by
  induction before generalizing y with
  | nil => exact if_neg late
  | cons b bs ih =>
    rw [List.cons_append, Melody.addAll, ih late, ite_self]

theorem Melody.addAll_of_ordered {es : List NoteEvent}
    (ordered : ∀ before e after, es = before ++ e :: after → (y.addEach parts before).inOrder e = true) :
    y.addAll parts es = some (y.addEach parts es) := by
  induction es generalizing y with
  | nil => rfl
  | cons e es ih =>
    refine (if_pos (ordered [] e es rfl)).trans ?_
    exact ih fun before d after split => ordered (e :: before) d after (congrArg (e :: ·) split)

/-- The three records behind events loaded (R115). -/
theorem Melody.addEach_records (es : List NoteEvent) :
    (y.addEach parts es).lastStart = (es.getLast?.map (·.start)).or y.lastStart ∧
      (y.addEach parts es).lastEndA = ((es.filter (·.part ≠ .b)).getLast?.map (·.stop)).or y.lastEndA ∧
      (y.addEach parts es).lastEndB = ((es.filter (·.part ≠ .a)).getLast?.map (·.stop)).or y.lastEndB := by
  induction es using List.reverseRecOn with
  | nil => exact ⟨rfl, rfl, rfl⟩
  | append_singleton es e ih =>
    obtain ⟨-, endA, endB⟩ := ih
    rw [Melody.addEach_concat]
    refine ⟨by simp [Melody.add], ?_, ?_⟩
    · by_cases own : e.part = .b <;> simp [Melody.add, Part.ofA_eq, own, endA]
    · by_cases own : e.part = .a <;> simp [Melody.add, Part.ofB_eq, own, endB]

/-- The notes behind events loaded: each keeps the ends that its singers had before it (R115). -/
theorem Melody.addEach_notes (es : List NoteEvent) :
    (y.addEach parts es).notes = y.notes ++ es.zipIdx.map fun x =>
      { start := x.1.start, stop := x.1.stop, number := x.1.number, part := x.1.part
        previousEndA := (((es.take x.2).filter (·.part ≠ .b)).getLast?.map (·.stop)).or y.lastEndA
        previousEndB := (((es.take x.2).filter (·.part ≠ .a)).getLast?.map (·.stop)).or y.lastEndB
        seen := ⟨false, false⟩
        onset := ⟨firstOnset x.1.part parts.one, firstOnset x.1.part parts.two⟩ } := by
  induction es using List.reverseRecOn with
  | nil => rw [List.zipIdx_nil, List.map_nil, List.append_nil]; rfl
  | append_singleton es e ih =>
    obtain ⟨-, endA, endB⟩ := y.addEach_records (parts := parts) es
    rw [Melody.addEach_concat, Melody.add, ih, endA, endB, List.zipIdx_append, List.map_append, List.append_assoc]
    refine congrArg (y.notes ++ ·) (congrArg₂ (· ++ ·) (List.map_congr_left fun x member => ?_) ?_)
    · have within : x.2 < es.length := by
        obtain ⟨e', i⟩ := x
        have := List.mem_zipIdx member
        omega
      rw [List.take_append_of_le_length within.le]
    · simp

end

theorem Melody.inOrder_eq (y : Melody) (e : NoteEvent) :
    y.inOrder e = !(y.lastStart.any (e.start < ·) || (e.part ≠ .b && y.lastEndA.any (e.start < ·)) ||
      (e.part ≠ .a && y.lastEndB.any (e.start < ·))) := by
  have within (o : Option Nat) : notBefore e.start o = !o.any (e.start < ·) := by
    simpa using notBefore_map e.start id o
  simp only [Melody.inOrder, within, Part.ofA_eq, Part.ofB_eq, Bool.not_or, Bool.not_and]

/-! ## The obligation -/

section

variable {s : State} {r : RoomId} {args : List Byte}

theorem State.noteEvents_of_closed (closed : (s.room r).phase.songOpen = false) : s.noteEvents r args = (s, .busy) := by
  rw [State.noteEvents, closed]; rfl

theorem State.noteEvents_of_malformed (opened : (s.room r).phase.songOpen = true) (malformed : ¬EventsWf args) :
    s.noteEvents r args = (s, .badRecord) := by
  simp only [State.noteEvents, opened, Bool.not_true, Bool.false_eq_true, if_false, readNoteEvents_of_not_wf malformed]

variable {es : List NoteEvent} (opened : (s.room r).phase.songOpen = true) (read : readNoteEvents args = some es)

include opened read

theorem State.noteEvents_of_late (late : (s.room r).melody.addAll (s.room r).settings.micParts es = none) :
    s.noteEvents r args = (s, .order) := by
  simp only [State.noteEvents, opened, Bool.not_true, Bool.false_eq_true, if_false, read, late]

theorem State.noteEvents_of_ordered {y : Melody} (added : (s.room r).melody.addAll (s.room r).settings.micParts es = some y) :
    s.noteEvents r args =
      if (s.room r).melody.notes.length + es.length ≤ Config.notesPerRoom ∧ s.notesUsed + es.length ≤ Config.notePool then
        (s.setRoom r { s.room r with melody := y }, .ok)
      else (s, .noSpace) := by
  simp only [State.noteEvents, opened, Bool.not_true, Bool.false_eq_true, if_false, read, added, State.modRoom_eq]

end

/-- Settles O19, by whether a song is open, whether the cell is well formed, and whether an event comes too late. -/
theorem noteEventsLoaded : Obligations.NoteEventsLoaded := by
  rintro s b tag r args byte four wellFormed credit room rfl given wf
  obtain rfl : four = u32 args := given.trans (funext fun i => (u32_eq args i).symm)
  replace wf : wellFormed ↔ EventsWf args := wf
  have carried : exec (.noteEvents b tag args) s =
      .next ((s.noteEvents r args).1.answer ⟨tag, b, (s.noteEvents r args).2, 50, []⟩).startUplink :=
    finish_command_room .noteEvents credit room rfl
  refine ⟨fun closed => ?_, fun opened malformed => ?_, ?_⟩
  · rw [carried, State.noteEvents_of_closed closed]
  · rw [carried, State.noteEvents_of_malformed opened (mt wf.2 malformed)]
  rintro es y lastStart lastEndA lastEndB late first opened good rfl events rfl rfl rfl lates onsets
  have read : readNoteEvents args = some es := events ▸ readNoteEvents_of_wf (wf.1 good)
  have order (before : List NoteEvent) (e : NoteEvent) :
      ((s.room r).melody.addEach (s.room r).settings.micParts before).inOrder e = !late before e := by
    obtain ⟨start, endA, endB⟩ := (s.room r).melody.addEach_records (parts := (s.room r).settings.micParts) before
    rw [Melody.inOrder_eq, start, endA, endB, lates]
  have firsts (p : Part) (m : MicPart) : first p m = firstOnset p m := by
    rw [onsets]; cases m <;> cases p <;> rfl
  rw [carried]
  refine ⟨?_, fun ordered => ?_⟩
  · rintro ⟨before, e, after, split, tooLate⟩
    have refused : (s.room r).melody.addAll (s.room r).settings.micParts es = none := by
      rw [split]
      exact Melody.addAll_of_late (by rw [order, tooLate]; decide)
    rw [State.noteEvents_of_late opened read refused]
  · have added : (s.room r).melody.addAll (s.room r).settings.micParts es = _ :=
      Melody.addAll_of_ordered fun before e after split => by rw [order, ordered before e after split]; rfl
    obtain ⟨start, endA, endB⟩ := (s.room r).melody.addEach_records (parts := (s.room r).settings.micParts) es
    have notes := (s.room r).melody.addEach_notes (parts := (s.room r).settings.micParts) es
    rw [State.noteEvents_of_ordered opened read added, answer_ite]
    simp only [firsts, ← start, ← endA, ← endB, ← notes]
    rfl

end Sys2Proof.Machine
end

section
/-! SUPPORT. STATUS_QUERY: the places of the items of 10.5 in the picture, and their values read there (R174, 11.1). -/

namespace Sys2Proof.Machine

/-! ## Bytes that stand at a place -/

/-- The bytes `xs` stand in `p` from place `i` on. -/
def StandsAt (p : List Byte) (i : Nat) (xs : List Byte) : Prop := ∃ before after, p = before ++ (xs ++ after) ∧ before.length = i

section

variable {p xs ys zs : List Byte} {i j n : Nat}

theorem StandsAt.whole (p : List Byte) : StandsAt p 0 p := ⟨[], [], by rw [List.append_nil, List.nil_append], rfl⟩

/-- A part of what stands at a place stands behind what comes before it there. -/
theorem StandsAt.part (stands : StandsAt p i (xs ++ (ys ++ zs))) (place : i + xs.length = j) : StandsAt p j ys := by
  obtain ⟨before, after, rfl, rfl⟩ := stands
  exact ⟨before ++ xs, zs ++ after, by simp only [List.append_assoc], by rw [List.length_append, place]⟩

theorem StandsAt.first (stands : StandsAt p i (xs ++ ys)) : StandsAt p i xs := stands.part (xs := []) (Nat.add_zero i)

theorem StandsAt.last (stands : StandsAt p i (xs ++ ys)) (place : i + xs.length = j) : StandsAt p j ys := by
  rw [← ys.append_nil] at stands
  exact stands.part place

theorem StandsAt.flatten {items : List (List Byte)} {k : Nat} (stands : StandsAt p i items.flatten)
    (item : items[k]? = some xs) : StandsAt p (i + ((items.map List.length).take k).sum) xs := by
  obtain ⟨inside, rfl⟩ := List.getElem?_eq_some_iff.1 item
  have split : items.flatten = (items.take k).flatten ++ (items[k] ++ (items.drop (k + 1)).flatten) := by
    rw [← List.flatten_cons, ← List.flatten_append, List.cons_getElem_drop_succ, List.take_append_drop]
  rw [split] at stands
  exact stands.part (by rw [List.length_flatten, List.map_take])

theorem StandsAt.getD (stands : StandsAt p i xs) (within : j < xs.length) : p.getD (i + j) 0 = xs.getD j 0 := by
  obtain ⟨before, after, rfl, rfl⟩ := stands
  rw [List.getD_append_right _ _ _ _ (Nat.le_add_right ..), Nat.add_sub_cancel_left, List.getD_append _ _ _ _ within]

theorem u8_byteOf (n : Nat) : (byteOf n).toNat = n % 256 := BitVec.toNat_ofNat ..

theorem StandsAt.u8 (stands : StandsAt p i (be1 n)) : u8 p i = n % 256 := by
  have byte := stands.getD (j := 0) (by simp [be1])
  rw [Machine.u8, ← Nat.add_zero i, byte]
  exact u8_byteOf n

theorem StandsAt.u16 (stands : StandsAt p i (be2 n)) : u16 p i = n % 65536 := by
  have high : Machine.u8 p i = n / 256 % 256 := StandsAt.u8 (stands.first (xs := be1 (n / 256)) (ys := be1 n))
  have low : Machine.u8 p (i + 1) = n % 256 := StandsAt.u8 (stands.last (xs := be1 (n / 256)) (ys := be1 n) rfl)
  rw [Machine.u16, high, low]
  omega

theorem StandsAt.u32 (stands : StandsAt p i (be4 n)) : u32 p i = n % 4294967296 := by
  have split : be4 n = be2 (n / 65536) ++ be2 n := by
    have quotient : n / 65536 / 256 = n / 16777216 := Nat.div_div_eq_div_mul ..
    simp only [be4, be2, quotient]
    rfl
  rw [split] at stands
  rw [Machine.u32, stands.first.u16, (stands.last (j := i + 2) rfl).u16]
  omega

end

/-! ## Items given for all rooms, channels and addresses (11.1, log entry 13) -/

section

variable {s : State} {p : List Byte} {i j w : Nat}

theorem State.eachRoom_length {f : Room → List Byte} (width : ∀ rm, (f rm).length = w) : (s.eachRoom f).length = 4 * w := by
  simp only [State.eachRoom, List.length_append, width]
  omega

theorem StandsAt.eachRoom {f : Room → List Byte} (stands : StandsAt p i (s.eachRoom f)) (width : ∀ rm, (f rm).length = w)
    (r : RoomId) (place : i + w * r.val = j) : StandsAt p j (f (s.room r)) := by
  subst place
  match r with
  | 0 => exact stands.first.first.first
  | 1 => exact stands.first.first.last (by simp only [width]; omega)
  | 2 => exact stands.first.last (by simp only [List.length_append, width]; omega)
  | 3 => exact stands.last (by simp only [List.length_append, width]; omega)

theorem StandsAt.eachChannel {f : Room → Mic → List Byte} (stands : StandsAt p i (s.eachChannel f))
    (width : ∀ rm m, (f rm m).length = w) (r : RoomId) (m : Mic) (place : i + w * (2 * r.val + m.index) = j) :
    StandsAt p j (f (s.room r) m) := by
  have room := StandsAt.eachRoom (w := 2 * w) stands (fun rm => by rw [List.length_append, width, width]; omega) r rfl
  subst place
  cases m with
  | mic1 => exact room.last (xs := []) (by simp only [Mic.index, List.length_nil]; ring) |>.first
  | mic2 => exact room.last (by rw [width]; simp only [Mic.index]; ring)

theorem StandsAt.eachHandset {f : HandsetRecord → List Byte} (stands : StandsAt p i (s.eachHandset f))
    (width : ∀ x, (f x).length = w) (r : RoomId) (h : HandsetId) (place : i + w * (15 * r.val + h.val) = j) :
    StandsAt p j (f ((s.room r).line.records.get h)) := by
  have lengths (rm : Room) : (((List.finRange 15).map fun k => f (rm.line.records.get k)).map List.length) =
      List.replicate 15 w := by
    rw [List.map_map, List.eq_replicate_iff]
    refine ⟨by simp, fun n member => ?_⟩
    obtain ⟨k, -, rfl⟩ := List.mem_map.1 member
    exact width _
  have room : StandsAt p (i + 15 * w * r.val) ((List.finRange 15).map fun k => f ((s.room r).line.records.get k)).flatten :=
    StandsAt.eachRoom (f := fun rm => ((List.finRange 15).map fun k => f (rm.line.records.get k)).flatten) stands
      (fun rm => by rw [List.length_flatten, lengths, List.sum_replicate, smul_eq_mul]) r rfl
  have own := room.flatten (k := h.val) (xs := f ((s.room r).line.records.get h)) (by simp)
  rw [lengths, List.take_replicate, List.sum_replicate, smul_eq_mul, min_eq_left h.isLt.le] at own
  rw [← place]
  convert own using 1
  ring

end

/-! ## The items of the picture (R174) -/

/-- The items of 10.5 in the order of its rows. -/
def State.pictureItems (s : State) : List (List Byte) :=
  [be1 s.link.readyCause.code, be2 s.link.cellsDiscarded, be2 s.link.creditStalls, be2 s.link.results.length,
    be2 s.link.notices.length, be2 s.link.pendingPairs.length,
    s.eachRoom fun rm => be1 rm.phase.code, s.eachRoom fun rm => be1 rm.reasons.code,
    s.eachRoom fun rm => be4 rm.timeline.clock, s.eachRoom fun rm => be1 rm.timeline.tempo,
    s.eachRoom fun rm => beInt rm.timeline.keyOffset,
    be4 s.glyphs.fill, be2 s.glyphs.table.length,
    s.eachRoom fun rm => be2 rm.lyrics.lineCount, s.eachRoom fun rm => be2 rm.lyrics.syllableCount,
    s.eachRoom fun rm => orOnes4 (rm.lyrics.lastLoaded.map (·.start)),
    be2 (Config.linePool - s.linesUsed), be2 (Config.syllablePool - s.syllablesUsed),
    s.eachRoom fun rm =>
      be1 (rm.video.roles.get 0).code ++ be1 (rm.video.roles.get 1).code ++ be1 (rm.video.roles.get 2).code,
    s.eachRoom fun rm => presentSequence rm.video.lastCompleted, s.eachRoom fun rm => rm.video.fillingItem,
    s.eachRoom fun rm => be2 rm.video.completed, s.eachRoom fun rm => be2 rm.video.dropped,
    s.eachRoom fun rm => be2 rm.video.abandoned, s.eachRoom fun rm => be2 rm.video.discarded,
    flagByte s.engine.table.isSome, flagByte s.engine.current.isSome, orOnes1 (s.engine.current.map (·.channel.val)),
    s.eachChannel fun rm m => be2 (rm.mics.get m).dropped, s.eachChannel fun rm m => be2 (rm.mics.get m).lost,
    s.eachRoom fun rm => be2 rm.melody.notes.length, be2 (Config.notePool - s.notesUsed),
    s.eachChannel fun rm m => be2 (rm.singers.get m).graded, s.eachChannel fun rm m => orOnes2 (rm.singers.get m).live,
    s.eachRoom fun rm => be2 rm.line.garbled, s.eachRoom fun rm => be2 rm.line.silent,
    s.eachHandset fun x => flagByte x.online, s.eachHandset fun x => be2 x.misses,
    s.eachHandset fun x => be2 x.outbox.length,
    s.eachRoom fun rm => be2 rm.queue.entries.length, s.eachRoom fun rm => orOnes1 (rm.queue.head?.map (·.state.code)),
    be2 (Config.entryPool - s.entriesUsed)]

theorem State.statusPicture_eq (s : State) : s.statusPicture = s.pictureItems.flatten := by
  simp only [State.statusPicture, State.deviceItems, State.roomItems, State.glyphItems, State.lyricItems, State.videoItems,
    State.analysisItems, State.scoringItems, State.handsetItems, State.queueItems, State.pictureItems, List.append_assoc,
    List.flatten_cons, List.flatten_nil, List.append_nil]

/-- The widths of the items. -/
def pictureWidths : List Nat :=
  [1, 2, 2, 2, 2, 2, 4, 4, 16, 4, 4, 4, 2, 8, 8, 16, 2, 2, 12, 12, 20, 8, 8, 8, 8, 1, 1, 1, 16, 16, 8, 2, 16, 16, 8, 8, 60, 120,
    120, 8, 4, 2]

@[simp] theorem be1_length (n : Nat) : (be1 n).length = 1 := rfl
@[simp] theorem be2_length (n : Nat) : (be2 n).length = 2 := rfl
@[simp] theorem be4_length (n : Nat) : (be4 n).length = 4 := rfl
@[simp] theorem beInt_length (n : Int) : (beInt n).length = 1 := rfl
@[simp] theorem flagByte_length (b : Bool) : (flagByte b).length = 1 := rfl
@[simp] theorem orOnes1_length (n : Option Nat) : (orOnes1 n).length = 1 := rfl
@[simp] theorem orOnes2_length (n : Option Nat) : (orOnes2 n).length = 2 := rfl
@[simp] theorem orOnes4_length (n : Option Nat) : (orOnes4 n).length = 4 := rfl
@[simp] theorem presentSequence_length (n : Option Nat) : (presentSequence n).length = 3 := by cases n <;> rfl
@[simp] theorem FrameManager.fillingItem_length (v : FrameManager) : v.fillingItem.length = 5 := by
  rw [FrameManager.fillingItem, List.length_append, presentSequence_length, be2_length]

theorem State.pictureItems_length (s : State) : s.pictureItems.map List.length = pictureWidths := by
  simp [State.pictureItems, pictureWidths, State.eachRoom, State.eachChannel, State.eachHandset]

/-- An item of the picture stands behind those of the rows before its own. -/
theorem State.picture_item {s : State} {k i : Nat} {xs : List Byte} (item : s.pictureItems[k]? = some xs)
    (place : (pictureWidths.take k).sum = i) : StandsAt s.statusPicture i xs := by
  have whole : StandsAt s.statusPicture 0 s.pictureItems.flatten := s.statusPicture_eq ▸ StandsAt.whole s.statusPicture
  have offset : 0 + ((s.pictureItems.map List.length).take k).sum = i := by rw [s.pictureItems_length, Nat.zero_add, place]
  exact offset ▸ whole.flatten item

/-- An item of the picture given for each room. -/
theorem State.picture_room {s : State} {k i w j : Nat} {f : Room → List Byte} (item : s.pictureItems[k]? = some (s.eachRoom f))
    (offset : (pictureWidths.take k).sum = i) (width : ∀ rm, (f rm).length = w) (r : RoomId) (place : i + w * r.val = j) :
    StandsAt s.statusPicture j (f (s.room r)) := (State.picture_item item offset).eachRoom width r place

/-! ## Values that are none, and signed ones (11.1) -/

section

variable {p : List Byte} {i : Nat}

theorem StandsAt.flag {b : Bool} (stands : StandsAt p i (flagByte b)) : Machine.u8 p i = if b then 1 else 0 := by
  rw [StandsAt.u8 stands]; cases b <;> rfl

theorem StandsAt.i8 {n : Int} (stands : StandsAt p i (beInt n)) : Machine.i8 p i = n.bmod 256 := by
  have byte := stands.getD (j := 0) (by simp)
  rw [Machine.i8, ← Nat.add_zero i, byte]
  exact BitVec.toInt_ofInt n

theorem StandsAt.present {n : Option Nat} (stands : StandsAt p i (presentSequence n)) :
    Machine.u8 p i = (if n.isSome then 1 else 0) ∧ Machine.u16 p (i + 1) = n.getD 0 % 65536 := by
  cases n with
  | none =>
    exact ⟨(StandsAt.u8 (stands.first (xs := be1 0) (ys := be2 0))).trans rfl,
      (stands.last (xs := be1 0) (ys := be2 0) rfl).u16⟩
  | some n =>
    exact ⟨(StandsAt.u8 (stands.first (xs := be1 1) (ys := be2 n))).trans rfl,
      (stands.last (xs := be1 1) (ys := be2 n) rfl).u16⟩

end

/-! ## The items of a room, a channel and a handset address (10.5) -/

section

variable (s : State) (r : RoomId)

theorem State.picture_device :
    u8 s.statusPicture 0 = (match s.link.readyCause with
      | .none => 0 | .powerOn => 1 | .resetLine => 2 | .resetCommand => 3) ∧
    u8 s.statusPicture 163 = (match s.engine.current with | some a => a.channel.val | none => 255) := by
  refine ⟨(StandsAt.u8 (State.picture_item (k := 0) rfl rfl)).trans ?_,
    (StandsAt.u8 (State.picture_item (k := 27) rfl rfl)).trans ?_⟩
  · cases s.link.readyCause <;> rfl
  · cases s.engine.current with
    | none => rfl
    | some a => exact Nat.mod_eq_of_lt (lt_trans a.channel.isLt (by decide))

theorem State.picture_timeline :
    u8 s.statusPicture (11 + r.val) = (match (s.room r).phase with
      | .dark => 0 | .attract => 1 | .cueing => 2 | .playing => 3 | .paused => 4 | .result => 5) ∧
    u8 s.statusPicture (15 + r.val) =
      (if (s.room r).reasons.stall then 1 else 0) + (if (s.room r).reasons.staff then 2 else 0) ∧
    u32 s.statusPicture (19 + 4 * r.val) = (s.room r).timeline.clock % 4294967296 ∧
    u8 s.statusPicture (35 + r.val) = (s.room r).timeline.tempo % 256 ∧
    i8 s.statusPicture (39 + r.val) = (s.room r).timeline.keyOffset.bmod 256 := by
  refine ⟨(StandsAt.u8 (State.picture_room (k := 6) (w := 1) (i := 11) rfl rfl (fun _ => rfl) r (by rw [one_mul]))).trans ?_,
    (StandsAt.u8 (State.picture_room (k := 7) (w := 1) (i := 15) rfl rfl (fun _ => rfl) r (by rw [one_mul]))).trans ?_,
    (State.picture_room (k := 8) rfl rfl (fun _ => rfl) r rfl).u32,
    StandsAt.u8 (State.picture_room (k := 9) (w := 1) (i := 35) rfl rfl (fun _ => rfl) r (by rw [one_mul])),
    StandsAt.i8 (State.picture_room (k := 10) (w := 1) (i := 39) rfl rfl (fun _ => rfl) r (by rw [one_mul]))⟩
  · cases (s.room r).phase <;> rfl
  · rw [PauseReasons.code]
    cases (s.room r).reasons.stall <;> cases (s.room r).reasons.staff <;> rfl

theorem State.picture_lyrics :
    u16 s.statusPicture (49 + 2 * r.val) = (s.room r).lyrics.lines.length % 65536 ∧
    u16 s.statusPicture (57 + 2 * r.val) = ((s.room r).lyrics.lines.map fun l => l.syllables.length).sum % 65536 ∧
    u32 s.statusPicture (65 + 4 * r.val) =
      (match (s.room r).lyrics.lastLoaded with | some z => z.start % 4294967296 | none => 4294967295) := by
  refine ⟨(State.picture_room (k := 13) rfl rfl (fun _ => rfl) r rfl).u16,
    (State.picture_room (k := 14) rfl rfl (fun _ => rfl) r rfl).u16,
    (State.picture_room (k := 15) rfl rfl (fun _ => rfl) r rfl).u32.trans ?_⟩
  cases (s.room r).lyrics.lastLoaded <;> rfl

theorem State.picture_roles (b : Fin 3) :
    u8 s.statusPicture (85 + 3 * r.val + b.val) = (match (s.room r).video.roles.get b with
      | .front => 0 | .ready => 1 | .filling => 2 | .free => 3) := by
  have roles := State.picture_room (s := s) (k := 18) (i := 85) rfl rfl (w := 3) (fun _ => rfl) r rfl
  have value (x : Role) : x.code % 256 = (match x with | .front => 0 | .ready => 1 | .filling => 2 | .free => 3) := by
    cases x <;> rfl
  match b with
  | 0 => exact (StandsAt.u8 roles.first.first).trans (value _)
  | 1 => exact (StandsAt.u8 (roles.first.last rfl)).trans (value _)
  | 2 => exact (StandsAt.u8 (roles.last rfl)).trans (value _)

theorem State.picture_frames :
    u8 s.statusPicture (97 + 3 * r.val) = (if (s.room r).video.lastCompleted.isSome then 1 else 0) ∧
    u16 s.statusPicture (98 + 3 * r.val) = (s.room r).video.lastCompleted.getD 0 % 65536 ∧
    u8 s.statusPicture (109 + 5 * r.val) = (if (s.room r).video.record.isSome then 1 else 0) ∧
    u16 s.statusPicture (110 + 5 * r.val) = (match (s.room r).video.record with | some f => f.sequence | none => 0) % 65536 ∧
    u16 s.statusPicture (112 + 5 * r.val) = (match (s.room r).video.record with | some f => f.count | none => 0) % 65536 := by
  have completed := State.picture_room (s := s) (k := 19) (i := 97) rfl rfl (w := 3) (fun _ => presentSequence_length _) r rfl
  have filling := State.picture_room (s := s) (k := 20) (i := 109) rfl rfl (w := 5)
    (fun _ => FrameManager.fillingItem_length _) r rfl
  obtain ⟨someCompleted, last⟩ := completed.present
  obtain ⟨someFrame, sequence⟩ := filling.first.present
  have count := (filling.last (j := 112 + 5 * r.val) (by rw [presentSequence_length]; omega)).u16
  have behind (i : Nat) : i + 5 * r.val + 1 = i + 1 + 5 * r.val := by omega
  rw [behind] at sequence
  rw [show 97 + 3 * r.val + 1 = 98 + 3 * r.val by omega] at last
  refine ⟨someCompleted, last, by rw [someFrame, Option.isSome_map], sequence.trans ?_, count.trans ?_⟩
  · cases (s.room r).video.record <;> rfl
  · cases (s.room r).video.record <;> rfl

theorem State.picture_counters :
    u16 s.statusPicture (129 + 2 * r.val) = (s.room r).video.completed % 65536 ∧
    u16 s.statusPicture (137 + 2 * r.val) = (s.room r).video.dropped % 65536 ∧
    u16 s.statusPicture (145 + 2 * r.val) = (s.room r).video.abandoned % 65536 ∧
    u16 s.statusPicture (153 + 2 * r.val) = (s.room r).video.discarded % 65536 ∧
    u16 s.statusPicture (196 + 2 * r.val) = (s.room r).melody.notes.length % 65536 ∧
    u16 s.statusPicture (238 + 2 * r.val) = (s.room r).line.garbled % 65536 ∧
    u16 s.statusPicture (246 + 2 * r.val) = (s.room r).line.silent % 65536 :=
  ⟨(State.picture_room (k := 21) rfl rfl (fun _ => rfl) r rfl).u16,
    (State.picture_room (k := 22) rfl rfl (fun _ => rfl) r rfl).u16,
    (State.picture_room (k := 23) rfl rfl (fun _ => rfl) r rfl).u16,
    (State.picture_room (k := 24) rfl rfl (fun _ => rfl) r rfl).u16,
    (State.picture_room (k := 30) rfl rfl (fun _ => rfl) r rfl).u16,
    (State.picture_room (k := 34) rfl rfl (fun _ => rfl) r rfl).u16,
    (State.picture_room (k := 35) rfl rfl (fun _ => rfl) r rfl).u16⟩

theorem State.picture_queue :
    u16 s.statusPicture (554 + 2 * r.val) = (s.room r).queue.entries.length % 65536 ∧
    u8 s.statusPicture (562 + r.val) = (match (s.room r).queue.entries.head? with
      | none => 255
      | some e => match e.state with | .queued => 0 | .offered => 1 | .loading => 2 | .playing => 3) := by
  refine ⟨(State.picture_room (k := 39) rfl rfl (fun _ => rfl) r rfl).u16,
    (StandsAt.u8 (State.picture_room (k := 40) (w := 1) (i := 562) rfl rfl (fun _ => rfl) r (by rw [one_mul]))).trans ?_⟩
  rw [RequestQueue.head?]
  cases (s.room r).queue.entries.head? with
  | none => rfl
  | some e =>
    simp only [Option.map_some, Option.getD_some]
    cases e.state <;> rfl

theorem State.picture_channel (m : Mic) (x : Singer) (own : x = (s.room r).singers.get m) :
    u16 s.statusPicture (164 + 2 * (2 * r.val + m.index)) = ((s.room r).mics.get m).dropped % 65536 ∧
    u16 s.statusPicture (180 + 2 * (2 * r.val + m.index)) = ((s.room r).mics.get m).lost % 65536 ∧
    u16 s.statusPicture (206 + 2 * (2 * r.val + m.index)) = x.graded % 65536 ∧
    u16 s.statusPicture (222 + 2 * (2 * r.val + m.index)) = (if x.graded = 0 then 65535
      else 1000 * (4 * x.hit + 2 * x.near) / (4 * x.graded)) % 65536 := by
  subst own
  refine ⟨((State.picture_item (k := 28) rfl rfl).eachChannel (fun _ _ => rfl) r m rfl).u16,
    ((State.picture_item (k := 29) rfl rfl).eachChannel (fun _ _ => rfl) r m rfl).u16,
    ((State.picture_item (k := 32) rfl rfl).eachChannel (fun _ _ => rfl) r m rfl).u16,
    ((State.picture_item (k := 33) rfl rfl).eachChannel (fun _ _ => rfl) r m rfl).u16.trans ?_⟩
  rw [Singer.live]
  split <;> rfl

theorem State.picture_handset (h : HandsetId) :
    u8 s.statusPicture (254 + (15 * r.val + h.val)) = (if ((s.room r).line.records.get h).online then 1 else 0) ∧
    u16 s.statusPicture (314 + 2 * (15 * r.val + h.val)) = ((s.room r).line.records.get h).misses % 65536 ∧
    u16 s.statusPicture (434 + 2 * (15 * r.val + h.val)) = ((s.room r).line.records.get h).outbox.length % 65536 :=
  ⟨((State.picture_item (k := 36) (i := 254) rfl rfl).eachHandset (w := 1) (fun _ => rfl) r h (by rw [one_mul])).flag,
    ((State.picture_item (k := 37) rfl rfl).eachHandset (w := 2) (fun _ => rfl) r h rfl).u16,
    ((State.picture_item (k := 38) rfl rfl).eachHandset (w := 2) (fun _ => rfl) r h rfl).u16⟩

end

/-- Settles O10, by the place at which each item stands in the picture. -/
theorem statusQueryReportsOneMoment : Obligations.StatusQueryReportsOneMoment := by
  refine ⟨fun s tag credit => congrArg finish ?_, ?_⟩
  · exact State.command_device .statusQuery credit rfl
  rintro s p rfl
  obtain ⟨cause, channel⟩ := s.picture_device
  refine ⟨by rw [s.statusPicture_eq, List.length_flatten, s.pictureItems_length]; rfl, cause,
    (State.picture_item (k := 1) rfl rfl).u16, (State.picture_item (k := 2) rfl rfl).u16,
    (State.picture_item (k := 3) rfl rfl).u16, (State.picture_item (k := 4) rfl rfl).u16,
    (State.picture_item (k := 5) rfl rfl).u16, (State.picture_item (k := 11) rfl rfl).u32,
    (State.picture_item (k := 12) rfl rfl).u16, (State.picture_item (k := 16) rfl rfl).u16,
    (State.picture_item (k := 17) rfl rfl).u16, (State.picture_item (k := 25) rfl rfl).flag,
    (State.picture_item (k := 26) rfl rfl).flag, channel, (State.picture_item (k := 31) rfl rfl).u16,
    (State.picture_item (k := 41) rfl rfl).u16, ?_, ?_, ?_, ?_⟩
  · rintro n rfl
    exact ⟨rfl, rfl, rfl, rfl⟩
  · rintro r rm k rfl rfl
    obtain ⟨phase, reasons, clock, tempo, key⟩ := s.picture_timeline r
    obtain ⟨lines, syllables, lastLoaded⟩ := s.picture_lyrics r
    obtain ⟨someCompleted, lastCompleted, someFrame, sequence, count⟩ := s.picture_frames r
    obtain ⟨completed, dropped, abandoned, discarded, notes, garbled, silent⟩ := s.picture_counters r
    obtain ⟨entries, head⟩ := s.picture_queue r
    exact ⟨phase, reasons, clock, tempo, key, lines, syllables, lastLoaded, s.picture_roles r, someCompleted, lastCompleted,
      someFrame, sequence, count, completed, dropped, abandoned, discarded, notes, garbled, silent, entries, head⟩
  · rintro r m x k own rfl
    exact s.picture_channel r m x own
  · rintro r h x k rfl rfl
    exact s.picture_handset r h

end Sys2Proof.Machine
end

section
/-! SUPPORT. The pixels of a frame (R61 to R78): the band that holds a line, the columns of a row of text, the wipe, the
text of a score, and the port. -/

namespace Sys2Proof.Machine

/-! ## The band that holds a line (R67) -/

/-- A band as it is drawn from a line down. -/
def Band.drawn (p : Phase) (top : Nat) (b : Band) : DrawnBand :=
  ⟨(b.effective p).1, (b.effective p).2, b.alignment, b.margin, top, min b.height (720 - top)⟩

section

variable {p : Phase} {y top : Nat}

theorem bandAt_append {before : List Band} (bs : List Band) (below : top + (before.map (·.height)).sum ≤ y) :
    bandAt p y top (before ++ bs) = bandAt p y (top + (before.map (·.height)).sum) bs := by
  induction before generalizing top with
  | nil => rfl
  | cons b before ih =>
    rw [List.map_cons, List.sum_cons] at below ⊢
    rw [List.cons_append, bandAt, if_neg (by omega), ih (by omega), Nat.add_assoc]

theorem bandAt_of_split {before after : List Band} {b : Band} (above : (before.map (·.height)).sum ≤ y)
    (within : y < (before.map (·.height)).sum + b.height) :
    bandAt p y 0 (before ++ b :: after) = some (b.drawn p (before.map (·.height)).sum) := by
  rw [bandAt_append _ (by omega), Nat.zero_add, bandAt, if_pos within]
  rfl

theorem bandAt_of_below {bs : List Band} (below : (bs.map (·.height)).sum ≤ y) : bandAt p y 0 bs = none := by
  have behind := bandAt_append (p := p) (y := y) (top := 0) (before := bs) [] (by omega)
  rwa [List.append_nil] at behind

end

theorem Band.effective_of_hidden {b : Band} {p : Phase}
    (hidden : b.mask.includes p = false ∨ (p = .result ∧ (b.kind = .lyricUpper ∨ b.kind = .lyricLower))) :
    b.effective p = (.video, 0) := by
  rw [Band.effective]
  rcases hidden with outside | lyrics
  · rw [outside]; rfl
  · rw [if_pos lyrics, ite_self]

theorem Band.effective_of_shown {b : Band} {p : Phase} (included : b.mask.includes p = true)
    (lyrics : p ≠ .result ∨ (b.kind ≠ .lyricUpper ∧ b.kind ≠ .lyricLower)) : b.effective p = (b.kind, b.dim) := by
  have drawn : ¬(p = .result ∧ (b.kind = .lyricUpper ∨ b.kind = .lyricLower)) := by
    rintro ⟨result, upper | lower⟩
    · exact lyrics.elim (· result) (·.1 upper)
    · exact lyrics.elim (· result) (·.2 lower)
  rw [Band.effective, included, if_neg drawn]
  rfl

/-! ## Columns of a row of text (R72, R75, R77) -/

section

variable (g : GlyphStore)

/-- The columns of a row, the gap behind each element with it. -/
def columns (t : TextRow) : Nat := (t.map fun z => z.1.width g + z.2).sum

theorem elementAt_of_left (k : Nat) {first x : Nat} (t : TextRow) (left : x < first) : elementAt g k first t x = none := by
  cases t with
  | nil => rfl
  | cons z t => exact if_pos left

/-- A column behind some elements of a row is looked up from the next. -/
theorem elementAt_append (k : Nat) {first x : Nat} {before : TextRow} (t : TextRow) (behind : first + columns g before ≤ x) :
    elementAt g k first (before ++ t) x = elementAt g (k + before.length) (first + columns g before) t x := by
  induction before generalizing k first with
  | nil => rfl
  | cons z before ih =>
    have sum : columns g (z :: before) = z.1.width g + z.2 + columns g before := by
      rw [columns, List.map_cons, List.sum_cons]; rfl
    rw [sum] at behind ⊢
    rw [List.cons_append, elementAt, if_neg (by omega), if_neg (by omega), ih _ (by omega), List.length_cons]
    congr 1 <;> omega

variable {x0 x j gap : Nat} {before after : TextRow} {e : Element}

theorem elementAt_of_element (place : x = x0 + columns g before + j) (within : j < e.width g) :
    elementAt g 0 x0 (before ++ (e, gap) :: after) x = some (before.length, e, j) := by
  rw [elementAt_append g 0 _ (by omega), elementAt, if_neg (by omega), if_pos (by omega), Nat.zero_add, place,
    Nat.add_sub_cancel_left]

theorem elementAt_of_gap (place : x = x0 + columns g before + j) (behind : e.width g ≤ j) (within : j < e.width g + gap) :
    elementAt g 0 x0 (before ++ (e, gap) :: after) x = none := by
  rw [elementAt_append g 0 _ (by omega), elementAt, if_neg (by omega), if_neg (by omega)]
  exact elementAt_of_left g _ _ (by omega)

theorem elementAt_of_right {t : TextRow} (right : x0 + columns g t ≤ x) : elementAt g 0 x0 t x = none := by
  have behind := elementAt_append g 0 [] right
  rwa [List.append_nil] at behind

theorem rowWidth_concat (before : TextRow) (e : Element) (gap : Nat) :
    rowWidth g (before ++ [(e, gap)]) = columns g before + e.width g := by
  induction before with
  | nil => rw [List.nil_append, rowWidth, columns, List.map_nil, List.sum_nil, Nat.zero_add]
  | cons z before ih =>
    have next : ∃ y ys, before ++ [(e, gap)] = y :: ys := List.exists_cons_of_ne_nil (by simp)
    obtain ⟨y, ys, shape⟩ := next
    rw [List.cons_append, shape, rowWidth, ← shape, ih, columns, columns, List.map_cons, List.sum_cons]
    · omega
    · exact List.cons_ne_nil _ _

end

/-! ## The wipe (R74) -/

theorem wipe_singing (z : Syllable) (clock sw : Nat) :
    (clock < z.onset → wipe .singing clock sw z = 0) ∧
    (z.onset + z.duration ≤ clock → wipe .singing clock sw z = sw) ∧
    (z.onset ≤ clock → clock < z.onset + z.duration →
      wipe .singing clock sw z = sw * (clock - z.onset) / z.duration) := by
  simp only [wipe]
  by_cases none : z.duration = 0
  · rw [if_pos none]
    exact ⟨fun early => if_neg (by omega), fun late => if_pos (by omega), fun early late => by omega⟩
  · rw [if_neg none]
    refine ⟨fun early => ?_, fun late => ?_, fun early late => ?_⟩
    · rw [Nat.sub_eq_zero_of_le early.le, Nat.zero_min, Nat.mul_zero, Nat.zero_div]
    · rw [min_eq_right (by omega), Nat.mul_div_cancel _ (by omega)]
    · rw [min_eq_left (by omega)]

/-! ## Dims and video pixels (R61, R69, R70) -/

theorem dimLuma_toNat {d : Nat} (y : Byte) : (dimLuma d y).toNat = y.toNat * (8 - d) / 8 := by
  have most : y.toNat * (8 - d) ≤ 255 * 8 := Nat.mul_le_mul (Nat.le_of_lt_succ y.isLt) (Nat.sub_le ..)
  rw [dimLuma, byteOf, BitVec.toNat_ofNat]
  omega

/-- A quotient toward zero of a number within 128 times the divisor. -/
theorem tdiv_eight_bounds {n : Int} (low : -1024 ≤ n) (high : n ≤ 1016) : -128 ≤ n.tdiv 8 ∧ n.tdiv 8 ≤ 127 := by
  rcases le_total 0 n with above | below
  · rw [Int.tdiv_eq_ediv_of_nonneg above]
    omega
  · have negated : n.tdiv 8 = -((-n) / 8) := by
      rw [← Int.tdiv_eq_ediv_of_nonneg (by omega), Int.neg_tdiv, neg_neg]
    rw [negated]
    omega

theorem dimChroma_toNat {d : Nat} (few : d ≤ 7) (c : Byte) :
    ((dimChroma d c).toNat : Int) = 128 + (((c.toNat : Int) - 128) * (8 - d)).tdiv 8 := by
  have range := c.isLt
  have scale : ((8 - d : Nat) : Int) = 8 - d := by omega
  have low : -128 ≤ (((c.toNat : Int) - 128) * (8 - d)).tdiv 8 ∧ (((c.toNat : Int) - 128) * (8 - d)).tdiv 8 ≤ 127 := by
    refine tdiv_eight_bounds ?_ ?_ <;> interval_cases d <;> omega
  rw [dimChroma, scale, BitVec.toNat_ofInt]
  omega

theorem Colour.dimmed_zero (c : Colour) : c.dimmed 0 = c := by
  have luma : dimLuma 0 c.y = c.y := BitVec.eq_of_toNat_eq (by rw [dimLuma_toNat]; omega)
  have chroma (b : Byte) : dimChroma 0 b = b := by
    refine BitVec.eq_of_toNat_eq ?_
    have same := dimChroma_toNat (d := 0) (by decide) b
    rw [Nat.cast_zero, sub_zero, Int.mul_tdiv_cancel _ (by decide)] at same
    omega
  rw [Colour.dimmed, luma, chroma, chroma]

/-! ## Lines of a band (R72, R73) -/

theorem glyphRow_of_inside {top height first i y : Nat}
    (start : first = top + (if 40 ≤ height then (height - 40) / 2 else 0)) (row : i < 40) (place : y = first + i)
    (within : y < top + height) : glyphRow top height y = some i := by
  have begins : (if Config.glyphRows ≤ height then top + (height - Config.glyphRows) / 2 else top) = first := by
    rw [start, Config.glyphRows]; split <;> rfl
  simp only [glyphRow, begins]
  rw [if_pos ⟨by omega, by rw [Config.glyphRows]; omega, within⟩, place, Nat.add_sub_cancel_left]

theorem glyphRow_of_outside {top height first y : Nat}
    (start : first = top + (if 40 ≤ height then (height - 40) / 2 else 0))
    (outside : y < first ∨ first + 40 ≤ y ∨ top + height ≤ y) : glyphRow top height y = none := by
  have begins : (if Config.glyphRows ≤ height then top + (height - Config.glyphRows) / 2 else top) = first := by
    rw [start, Config.glyphRows]; split <;> rfl
  simp only [glyphRow, begins]
  refine if_neg ?_
  rw [Config.glyphRows]
  omega

theorem unclipped_iff {margin x : Nat} : unclipped margin x = true ↔ x < 1280 - margin := decide_eq_true_iff

/-! ## Lyric lines (R75) -/

theorem Line.text_eq (l : Line) : l.text = l.glyphs.map fun c => (Element.glyph c, 2) := by
  rw [Line.text, spaced, List.map_map]; rfl

theorem columns_glyphs (g : GlyphStore) (codes : List Nat) :
    columns g (codes.map fun c => (Element.glyph c, 2)) =
      (codes.map fun c => ((g.entry c).map (·.width)).getD 16 + 2).sum := by
  rw [columns, List.map_map]; rfl

theorem Line.spanStart_eq (g : GlyphStore) (l : Line) (z : Syllable) :
    l.spanStart g z = ((l.glyphs.take z.first).map fun c => ((g.entry c).map (·.width)).getD 16 + 2).sum := by
  rw [Line.spanStart, Line.text_eq, ← List.map_take, List.map_map]; rfl

theorem Line.spanWidth_eq (g : GlyphStore) (l : Line) (z : Syllable) :
    l.spanWidth g z = rowWidth g (((l.glyphs.drop z.first).take z.count).map fun c => (Element.glyph c, 2)) := by
  rw [Line.spanWidth, Line.text_eq, ← List.map_drop, ← List.map_take]

section

variable {s : Snapshot} {l : Line} {x0 i x : Nat} {under : Colour}

theorem Snapshot.linePixel_of_none (none : elementAt s.glyphs 0 x0 l.text x = none) : s.linePixel l x0 i x under = under := by
  simp only [Snapshot.linePixel, none]

end

/-! ## Banner text (R76 to R78) -/

section

variable {s : Snapshot} {t : TextRow} {x0 i x : Nat} {under : Colour}

theorem Snapshot.bannerPixel_of_none (none : elementAt s.glyphs 0 x0 t x = none) : s.bannerPixel t x0 i x under = under := by
  simp only [Snapshot.bannerPixel, none]

theorem Snapshot.bannerPixel_of_element {k j : Nat} {e : Element} (here : elementAt s.glyphs 0 x0 t x = some (k, e, j)) :
    s.bannerPixel t x0 i x under = if e.pixel s.glyphs i j = 0 then under else s.palette.banner := by
  simp only [Snapshot.bannerPixel, here]

end

/-- Where an element shows: its glyph's pixels other than 0, and the square of the point (R40, R77). -/
theorem Element.pixel_ne_zero_iff (g : GlyphStore) (e : Element) (i j : Nat) : e.pixel g i j ≠ 0 ↔ (match e with
    | .glyph code => ∃ z, g.entry code = some z ∧ memRead clearCell g.cells (z.offset + i * z.width + j) ≠ 0
    | .point => 32 ≤ i ∧ i ≤ 37 ∧ 1 ≤ j ∧ j ≤ 6) := by
  cases e with
  | glyph code => cases entry : g.entry code <;> simp [Element.pixel, entry]
  | point => simp [Element.pixel]

/-- The digits of a score in tenths, the point and the tenth (R77). -/
theorem scoreText_eq (base n : Nat) :
    scoreText base n =
      (((if 1000 ≤ n then [n / 1000] else []) ++ (if 100 ≤ n then [n / 100 % 10] else []) ++
          [n / 10 % 10]).map (fun d => (Element.glyph (base + d), 2))) ++
        [(.point, 2), (.glyph (base + n % 10), 2)] := by
  have digits : decimalDigits (n / 10) =
      (if 1000 ≤ n then [n / 1000] else []) ++ (if 100 ≤ n then [n / 100 % 10] else []) ++ [n / 10 % 10] := by
    have hundreds : n / 10 / 10 = n / 100 := Nat.div_div_eq_div_mul ..
    have thousands : n / 10 / 100 = n / 1000 := Nat.div_div_eq_div_mul ..
    rw [decimalDigits, hundreds, thousands]
    rcases lt_or_ge n 100 with one | more
    · rw [if_pos (by omega), if_neg (by omega), if_neg (by omega), Nat.mod_eq_of_lt (by omega : n / 10 < 10)]; rfl
    · rcases lt_or_ge n 1000 with two | three
      · rw [if_neg (by omega), if_pos (by omega), if_neg (by omega), if_pos more, Nat.mod_eq_of_lt (by omega : n / 100 < 10)]
        rfl
      · rw [if_neg (by omega), if_neg (by omega), if_pos three, if_pos more]; rfl
  rw [scoreText, digits, spaced, List.map_append, List.map_map]
  rfl

/-- The six digits of a song number, the last with the gap between entries (R78). -/
theorem songText_eq (base n : Nat) :
    songText base n = (List.range 6).map fun k =>
      (Element.glyph (base + n / 10 ^ (5 - k) % 10), if k = 5 then 24 else 2) := by
  simp [songText, sixDigits, spaced, List.range_succ]

/-- The scores that a room state shows (R76). -/
theorem Snapshot.scores_of_phase {s : Snapshot} {v : PerMic ScoreView}
    (shows : (s.phase = .playing ∨ s.phase = .paused) ∧ v = s.live ∨ s.phase = .result ∧ v = s.final) : s.scores = some v := by
  rcases shows with ⟨playing | paused, rfl⟩ | ⟨result, rfl⟩
  · simp only [Snapshot.scores, playing]
  · simp only [Snapshot.scores, paused]
  · simp only [Snapshot.scores, result]

/-- Settles O43, by the band of a line, by the element of a column, and by the row of a glyph. -/
theorem framePixelsFollowTheBands : Obligations.FramePixelsFollowTheBands := by
  refine ⟨?_, fun d c few => ⟨dimLuma_toNat _, dimChroma_toNat few _, dimChroma_toNat few _⟩, ?_, ?_,
    fun z clock sw => ⟨rfl, rfl, wipe_singing z clock sw⟩, ?_, ?_, ?_⟩
  · rintro s x y top -
    have includes {b : Band} (included : Bool) (mask : included = (match s.phase with
        | .attract => b.mask.attract | .cueing => b.mask.cueing | .playing => b.mask.playing
        | .paused => b.mask.playing | .result => b.mask.result | .dark => false)) :
        b.mask.includes s.phase = included := by
      rw [mask]; cases s.phase <;> rfl
    refine ⟨fun before after b bands start above within included mask => ⟨fun hidden => ?_, fun d shown lyrics own => ?_⟩,
      fun below => ?_⟩
    · have drawn : b.effective s.phase = (.video, 0) :=
        Band.effective_of_hidden (hidden.imp_left fun outside => (includes _ mask).trans outside)
      subst start
      simp only [Snapshot.pixel, bands, bandAt_of_split above within, Band.drawn, drawn]
    · have drawn : b.drawn s.phase top = d := by
        rw [own, Band.drawn, Band.effective_of_shown ((includes _ mask).trans shown) lyrics]
      subst start
      simp only [Snapshot.pixel, bands, bandAt_of_split above within, drawn]
      subst own
      cases b.kind <;> rfl
    · simp only [Snapshot.pixel, bandAt_of_below below]
  · intro s b x y
    refine ⟨rfl, ?_⟩
    rintro l w x0 first rfl rfl start
    refine ⟨fun i row place within inside => ?_, fun outside => ?_⟩
    · simp only [Snapshot.lyricPixel, glyphRow_of_inside start row place within, unclipped_iff.2 inside, if_true,
        Line.text_eq]
      rfl
    · have apart : (y < first ∨ first + 40 ≤ y ∨ b.top + b.height ≤ y) ∨ 1280 - b.margin ≤ x := by tauto
      rcases apart with outside | clipped
      · simp only [Snapshot.lyricPixel, glyphRow_of_outside start outside]
      · have clips : ¬unclipped b.margin x = true := mt unclipped_iff.1 (not_lt.2 clipped)
        simp only [Snapshot.lyricPixel, clips, Bool.false_eq_true, if_false]
        cases glyphRow b.top b.height y <;> rfl
  · intro s l x0 i under
    refine ⟨fun x left => Snapshot.linePixel_of_none (elementAt_of_left _ _ _ left), fun x right => ?_,
      fun before after code glyphs j gap => ?_, ?_⟩
    · refine Snapshot.linePixel_of_none (elementAt_of_right _ ?_)
      rwa [Line.text_eq, columns_glyphs]
    · have text : l.text = before.map (fun c => (Element.glyph c, 2)) ++ (.glyph code, 2) ::
          after.map fun c => (Element.glyph c, 2) := by
        rw [Line.text_eq, glyphs, List.map_append, List.map_cons]
      have width : Element.width s.glyphs (.glyph code) = ((s.glyphs.entry code).map (·.width)).getD 16 := rfl
      refine Snapshot.linePixel_of_none ?_
      rw [text]
      refine elementAt_of_gap s.glyphs (j := Element.width s.glyphs (.glyph code) + j) ?_ (Nat.le_add_right ..) (by omega)
      rw [columns_glyphs, List.map_append, List.sum_append, List.map_singleton, List.sum_singleton, width]
      omega
    · rintro before after code x colours glyphs painted j within place
      have text : l.text = before.map (fun c => (Element.glyph c, 2)) ++ (.glyph code, 2) ::
          after.map fun c => (Element.glyph c, 2) := by
        rw [Line.text_eq, glyphs, List.map_append, List.map_cons]
      have here : elementAt s.glyphs 0 x0 l.text x = some (before.length, .glyph code, j) := by
        rw [text, elementAt_of_element s.glyphs (e := .glyph code) (by rw [columns_glyphs, place]) within, List.length_map]
      refine ⟨fun absent => ?_, fun g p present pixel => ?_⟩
      · simp only [Snapshot.linePixel, here, Element.pixel, absent, if_true]
      · have part : s.palette.of l.part = colours := by rw [painted]; cases l.part <;> rfl
        cases found : l.syllableOf before.length with
        | none =>
          rw [show l.syllables.find? _ = none from found]
          simp only [Snapshot.linePixel, here, Element.pixel, present, ← pixel, part, found]
        | some z =>
          rw [show l.syllables.find? _ = some z from found]
          simp only [Snapshot.linePixel, here, Element.pixel, present, ← pixel, part, found, Line.spanStart_eq,
            Line.spanWidth_eq]
  · rintro s t x0 i under width shows rfl rfl
    refine ⟨?_, fun x left => Snapshot.bannerPixel_of_none (elementAt_of_left _ _ _ left),
      fun x right => Snapshot.bannerPixel_of_none (elementAt_of_right _ right), ?_⟩
    · rintro before e gap rfl
      exact rowWidth_concat s.glyphs before e gap
    · rintro before after e gap j x rfl place
      have shows_iff := Element.pixel_ne_zero_iff s.glyphs e i j
      refine ⟨fun within shown => ?_, fun within hidden => ?_, fun behind within => ?_⟩
      · rw [Snapshot.bannerPixel_of_element (elementAt_of_element s.glyphs place within), if_neg (shows_iff.2 shown)]
      · rw [Snapshot.bannerPixel_of_element (elementAt_of_element s.glyphs place within),
          if_pos (not_not.1 (mt shows_iff.1 hidden))]
      · exact Snapshot.bannerPixel_of_none (elementAt_of_gap s.glyphs place behind within)
  · rintro s b x y first under rfl start
    refine ⟨fun outside => ?_, fun idle => ?_, fun i row place within => ⟨?_, ?_⟩⟩
    · have apart := glyphRow_of_outside start outside
      refine ⟨?_, by simp only [Snapshot.queuePixel, apart]⟩
      simp only [Snapshot.scorePixel, apart]
      cases s.scores <;> rfl
    · have hidden : s.scores = none := by rcases idle with idle | idle | idle <;> rw [Snapshot.scores, idle]
      simp only [Snapshot.scorePixel, hidden]
    · rintro v text shown left shows rfl rfl rfl
      simp only [Snapshot.scorePixel, Snapshot.scores_of_phase shows, glyphRow_of_inside start row place within, scoreText_eq]
      rfl
    · rintro t w x0 rfl rfl rfl
      have texts : s.songs.flatMap (songText s.digitBase) = s.songs.flatMap fun n => (List.range 6).map fun k =>
          (Element.glyph (s.digitBase + n / 10 ^ (5 - k) % 10), if k = 5 then 24 else 2) :=
        congrArg s.songs.flatMap (funext (songText_eq s.digitBase))
      simp only [Snapshot.queuePixel, glyphRow_of_inside start row place within, texts, unclipped_iff]
      rfl
  · intro s d x y n
    have even : 2 * x - 2 * x % 2 = 2 * x := by omega
    have odd : 2 * x + 1 - (2 * x + 1) % 2 = 2 * x := by omega
    refine ⟨by rw [Display.port, even], by rw [Display.port, odd], rfl, rfl, rfl, rfl, rfl, fun dim => ?_, ?_⟩
    · rw [Snapshot.videoPixel, Snapshot.videoPixel, Colour.dimmed_zero]
    · rw [Snapshot.videoPixel, Colour.dimmed_zero]
      rfl

end Sys2Proof.Machine
end

section
/-! SUPPORT. The bytes on the link (R164): what the intake takes does not read them and leaves them, so that a cell is
taken in the same way whatever stands behind it. -/

namespace Sys2Proof.Machine

/-- The part with other bytes on the link. -/
def State.withOnLink (l : List Byte) (s : State) : State := { s with onLink := l }

/-! ## Reading and writing (the frame of the bytes on the link) -/

section

variable (l : List Byte) (s : State) (r : RoomId)

@[simp] theorem State.withOnLink_room : (s.withOnLink l).room r = s.room r := rfl
@[simp] theorem State.withOnLink_link : (s.withOnLink l).link = s.link := rfl
@[simp] theorem State.withOnLink_glyphs : (s.withOnLink l).glyphs = s.glyphs := rfl

@[simp] theorem State.withOnLink_modRoom (f : Room → Room) :
    (s.withOnLink l).modRoom r f = (s.modRoom r f).withOnLink l := rfl
@[simp] theorem State.withOnLink_hand (h : HandOver) : (s.withOnLink l).hand h = (s.hand h).withOnLink l := rfl
@[simp] theorem State.withOnLink_dropHanded (which : HandOver → Bool) :
    (s.withOnLink l).dropHanded which = (s.dropHanded which).withOnLink l := rfl
@[simp] theorem State.withOnLink_forgetAnswers (who : HandsetId → Bool) :
    (s.withOnLink l).forgetAnswers r who = (s.forgetAnswers r who).withOnLink l := rfl
@[simp] theorem State.withOnLink_answer (x : Result) : (s.withOnLink l).answer x = (s.answer x).withOnLink l := rfl
@[simp] theorem State.withOnLink_placeNews (h : HandsetId) (k : NewsKind) (ticket : Nat) :
    (s.withOnLink l).placeNews r h k ticket = (s.placeNews r h k ticket).withOnLink l := rfl
@[simp] theorem State.withOnLink_removeEntry (e : Entry) :
    (s.withOnLink l).removeEntry r e = (s.removeEntry r e).withOnLink l := rfl
@[simp] theorem State.withOnLink_clearRings : (s.withOnLink l).clearRings r = (s.clearRings r).withOnLink l := rfl
@[simp] theorem State.withOnLink_handClock : (s.withOnLink l).handClock r = (s.handClock r).withOnLink l := rfl
@[simp] theorem State.withOnLink_discardCell : (s.withOnLink l).discardCell = s.discardCell.withOnLink l := rfl

/-! ## The shared operations -/

@[simp] theorem State.withOnLink_raise (k : NoticeKind) : (s.withOnLink l).raise r k = (s.raise r k).withOnLink l := by
  rw [State.raise_eq, State.raise_eq s]
  rfl

@[simp] theorem State.withOnLink_makeOffer (e : Entry) :
    (s.withOnLink l).makeOffer r e = (s.makeOffer r e).withOnLink l := by
  simp only [State.makeOffer, State.withOnLink_modRoom, State.withOnLink_placeNews, State.withOnLink_raise]

@[simp] theorem State.withOnLink_offerTrigger : (s.withOnLink l).offerTrigger r = (s.offerTrigger r).withOnLink l := by
  simp only [State.offerTrigger, State.withOnLink_room, State.withOnLink_makeOffer, apply_ite (State.withOnLink l)]
  cases (s.room r).queue.head? with
  | none => rfl
  | some e => simp only [apply_ite (State.withOnLink l)]

@[simp] theorem State.withOnLink_noteQueueChange :
    (s.withOnLink l).noteQueueChange r = (s.noteQueueChange r).withOnLink l := by
  simp only [State.noteQueueChange, State.withOnLink_raise, State.withOnLink_modRoom]

@[simp] theorem State.withOnLink_queueChange : (s.withOnLink l).queueChange r = (s.queueChange r).withOnLink l := by
  simp only [State.queueChange, State.withOnLink_noteQueueChange, State.withOnLink_offerTrigger]

@[simp] theorem State.withOnLink_evaluate : (s.withOnLink l).evaluate r = (s.evaluate r).withOnLink l := by
  simp only [State.evaluate, apply_ite (State.withOnLink l), State.withOnLink_room, State.withOnLink_modRoom,
    State.withOnLink_raise]

@[simp] theorem State.withOnLink_acceptLine (f : Lyrics → Lyrics) :
    (s.withOnLink l).acceptLine r f = (s.acceptLine r f).withOnLink l := by
  simp only [State.acceptLine, apply_ite (State.withOnLink l), State.withOnLink_room, State.withOnLink_modRoom,
    State.withOnLink_evaluate]

@[simp] theorem State.withOnLink_nowPlaying : (s.withOnLink l).nowPlaying r = (s.nowPlaying r).withOnLink l := by
  simp only [State.nowPlaying, State.withOnLink_room]
  cases (s.room r).queue.head? <;> rfl

@[simp] theorem State.withOnLink_retireHead (news : Bool) :
    (s.withOnLink l).retireHead r news = (s.retireHead r news).withOnLink l := by
  simp only [State.retireHead, State.withOnLink_room]
  cases (s.room r).queue.head? with
  | none => rfl
  | some e =>
    simp only [State.withOnLink_removeEntry, State.withOnLink_placeNews, ← apply_ite (State.withOnLink l),
      State.withOnLink_noteQueueChange]

@[simp] theorem State.withOnLink_endSong : (s.withOnLink l).endSong r = (s.endSong r).withOnLink l := by
  simp only [State.endSong, State.withOnLink_modRoom, State.withOnLink_clearRings, State.withOnLink_retireHead,
    State.withOnLink_raise]

@[simp] theorem State.withOnLink_abort (news : Bool) : (s.withOnLink l).abort r news = (s.abort r news).withOnLink l := by
  simp only [State.abort, State.withOnLink_modRoom, State.withOnLink_retireHead, State.withOnLink_raise,
    State.withOnLink_clearRings, State.withOnLink_offerTrigger]

@[simp] theorem State.withOnLink_hold (why : PauseReasons) : (s.withOnLink l).hold r why = (s.hold r why).withOnLink l := by
  simp only [State.hold, State.withOnLink_modRoom, State.withOnLink_clearRings, State.withOnLink_raise]

@[simp] theorem State.withOnLink_removeReason (left : PauseReasons) :
    (s.withOnLink l).removeReason r left = (s.removeReason r left).withOnLink l := by
  simp only [State.removeReason, State.release, apply_ite (State.withOnLink l), State.withOnLink_modRoom,
    State.withOnLink_raise]

theorem State.withOnLink_cancelNews (es : List Entry) :
    (s.withOnLink l).cancelNews r es = (s.cancelNews r es).withOnLink l := by
  induction es generalizing s with
  | nil => rfl
  | cons e es ih => exact ih (s.placeNews r e.owner .cancelled e.ticket)

@[simp] theorem State.withOnLink_closeRoom : (s.withOnLink l).closeRoom r = (s.closeRoom r).withOnLink l := by
  simp only [State.closeRoom, apply_ite (State.withOnLink l), State.withOnLink_room, State.withOnLink_cancelNews,
    ← State.withOnLink_raise]
  rfl

@[simp] theorem State.withOnLink_cancelEntry (e : Entry) (news : Bool) :
    (s.withOnLink l).cancelEntry r e news = (s.cancelEntry r e news).withOnLink l := by
  simp only [State.cancelEntry, State.withOnLink_abort]
  cases e.state with
  | loading | playing => rfl
  | queued | offered =>
    simp only [State.withOnLink_removeEntry, State.withOnLink_placeNews, ← apply_ite (State.withOnLink l),
      State.withOnLink_queueChange]

/-! ## The commands -/

/-- The outcome of a command with other bytes on the link. -/
abbrev outcomeWithOnLink : State × Status → State × Status := Prod.map (State.withOnLink l) id

theorem State.withOnLink_glyphLoad (args : List Byte) :
    (s.withOnLink l).glyphLoad args = outcomeWithOnLink l (s.glyphLoad args) := by
  simp only [State.glyphLoad, State.withOnLink_glyphs]
  cases readGlyph args with
  | none => rfl
  | some x =>
    simp only [apply_ite (outcomeWithOnLink l)]
    rfl

theorem State.withOnLink_glyphClear : (s.withOnLink l).glyphClear = outcomeWithOnLink l s.glyphClear := by
  have shown : (s.withOnLink l).anyLineShown = s.anyLineShown := rfl
  simp only [State.glyphClear, shown, apply_ite (outcomeWithOnLink l)]
  rfl

theorem State.withOnLink_pitchCells (args : List Byte) :
    (s.withOnLink l).pitchCells args = outcomeWithOnLink l (s.pitchCells args) := by
  have songs : (s.withOnLink l).noSongOpen = s.noSongOpen := rfl
  simp only [State.pitchCells, songs, apply_ite (outcomeWithOnLink l)]
  cases readPitchCells args with
  | none => rfl
  | some cells =>
    simp only [apply_ite (outcomeWithOnLink l)]
    rfl

theorem State.withOnLink_lyricLine (args : List Byte) :
    (s.withOnLink l).lyricLine r args = outcomeWithOnLink l (s.lyricLine r args) := by
  have lines : (s.withOnLink l).lineFits r = s.lineFits r := rfl
  have syllables (need back : Nat) : (s.withOnLink l).syllablesFit r need back = s.syllablesFit r need back := rfl
  simp only [State.lyricLine, State.withOnLink_room, lines, syllables, State.withOnLink_acceptLine,
    apply_ite (outcomeWithOnLink l)]
  cases readLine args with
  | none => rfl
  | some x =>
    cases h : (s.room r).lyrics.lines.find? (fun y => y.id = x.id) <;> simp only [h, apply_ite (outcomeWithOnLink l)] <;> rfl

theorem State.withOnLink_noteEvents (args : List Byte) :
    (s.withOnLink l).noteEvents r args = outcomeWithOnLink l (s.noteEvents r args) := by
  have notes : (s.withOnLink l).notesUsed = s.notesUsed := rfl
  simp only [State.noteEvents, State.withOnLink_room, notes, apply_ite (outcomeWithOnLink l)]
  cases readNoteEvents args with
  | none => rfl
  | some es =>
    cases h : (s.room r).melody.addAll (s.room r).settings.micParts es <;>
      simp only [h, apply_ite (outcomeWithOnLink l)] <;> rfl

theorem State.withOnLink_songStart (position : Nat) :
    (s.withOnLink l).songStart r position = outcomeWithOnLink l (s.songStart r position) := by
  simp only [State.songStart, State.withOnLink_room, State.withOnLink_modRoom, State.withOnLink_nowPlaying,
    State.withOnLink_raise, State.withOnLink_evaluate, State.withOnLink_handClock, apply_ite (outcomeWithOnLink l)]
  rfl

theorem State.withOnLink_songOpen (ticket length tempo : Nat) :
    (s.withOnLink l).songOpen r ticket length tempo = outcomeWithOnLink l (s.songOpen r ticket length tempo) := by
  simp only [State.songOpen, State.withOnLink_room, apply_ite (outcomeWithOnLink l)]
  cases (s.room r).queue.opens ticket <;> rfl

theorem State.withOnLink_songRefuse (ticket : Nat) :
    (s.withOnLink l).songRefuse r ticket = outcomeWithOnLink l (s.songRefuse r ticket) := by
  simp only [State.songRefuse, State.withOnLink_room, State.withOnLink_removeEntry, State.withOnLink_placeNews,
    State.withOnLink_queueChange]
  cases (s.room r).queue.head? with
  | none => rfl
  | some e =>
    simp only [apply_ite (outcomeWithOnLink l)]
    rfl

theorem State.withOnLink_offerPoll : (s.withOnLink l).offerPoll r = outcomeWithOnLink l (s.offerPoll r) := by
  simp only [State.offerPoll, State.withOnLink_modRoom, State.withOnLink_room, State.withOnLink_raise,
    State.withOnLink_offerTrigger, apply_ite (outcomeWithOnLink l)]
  rfl

theorem State.withOnLink_queueRemove (ticket : Nat) :
    (s.withOnLink l).queueRemove r ticket = outcomeWithOnLink l (s.queueRemove r ticket) := by
  simp only [State.queueRemove, State.withOnLink_room, State.withOnLink_cancelEntry]
  cases (s.room r).queue.find? ticket <;> rfl

theorem State.withOnLink_queueMove (ticket target : Nat) :
    (s.withOnLink l).queueMove r ticket target = outcomeWithOnLink l (s.queueMove r ticket target) := by
  simp only [State.queueMove, State.withOnLink_room, State.withOnLink_modRoom, State.withOnLink_queueChange]
  cases (s.room r).queue.find? ticket with
  | none => rfl
  | some e =>
    simp only [apply_ite (outcomeWithOnLink l)]
    rfl

/-- A room command does not read the bytes on the link, and leaves them. -/
theorem State.withOnLink_carry (c : RoomCommand) (args : List Byte) :
    c.carry r args (s.withOnLink l) = outcomeWithOnLink l (c.carry r args s) := by
  cases c with
  | roomOpen =>
    simp only [RoomCommand.carry, State.roomOpen, State.withOnLink_room, State.withOnLink_modRoom,
      State.withOnLink_dropHanded, State.withOnLink_offerTrigger, apply_ite (outcomeWithOnLink l)]
    rfl
  | roomClose => exact congrArg (·, Status.ok) (State.withOnLink_closeRoom ..)
  | roomReset =>
    simp only [RoomCommand.carry, State.resetRoom, State.withOnLink_closeRoom, State.withOnLink_modRoom,
      State.withOnLink_forgetAnswers]
    rfl
  | roomSettings =>
    simp only [RoomCommand.carry, State.roomSettings, State.withOnLink_room]
    cases readSettings args <;> rfl
  | noticeMask =>
    simp only [RoomCommand.carry, State.noticeMask]
    cases readMask args <;> rfl
  | bandTable =>
    simp only [RoomCommand.carry, State.bandTable]
    cases readBands args <;> rfl
  | palette =>
    simp only [RoomCommand.carry, State.palette]
    cases readPalette args <;> rfl
  | lyricLine => exact State.withOnLink_lyricLine ..
  | noteEvents => exact State.withOnLink_noteEvents ..
  | songOpen => exact State.withOnLink_songOpen ..
  | songRefuse => exact State.withOnLink_songRefuse ..
  | songStart => exact State.withOnLink_songStart ..
  | songEnd =>
    simp only [RoomCommand.carry, State.songEnd, State.withOnLink_room, State.withOnLink_endSong]
    cases (s.room r).phase <;> rfl
  | pause =>
    simp only [RoomCommand.carry, State.pauseSong, State.withOnLink_room, State.withOnLink_hold]
    cases (s.room r).phase <;> rfl
  | resume =>
    simp only [RoomCommand.carry, State.resumeSong, State.withOnLink_room, State.withOnLink_removeReason,
      ← apply_ite (State.withOnLink l)]
    cases (s.room r).phase <;> rfl
  | skip =>
    simp only [RoomCommand.carry, State.skipSong, State.withOnLink_room, State.withOnLink_abort,
      apply_ite (outcomeWithOnLink l)]
    rfl
  | setTempo =>
    simp only [RoomCommand.carry, State.setTempo, State.withOnLink_room, apply_ite (outcomeWithOnLink l)]
    rfl
  | offerPoll => exact State.withOnLink_offerPoll ..
  | queueRemove => exact State.withOnLink_queueRemove ..
  | queueMove => exact State.withOnLink_queueMove ..

theorem State.withOnLink_deviceCarry (c : DeviceCommand) (tag : Byte) (args : List Byte) :
    c.carry tag args (s.withOnLink l) = (c.carry tag args s).withOnLink l := by
  cases c with
  | deviceReset => rfl
  | statusQuery => rfl
  | glyphLoad => simp only [DeviceCommand.carry, State.withOnLink_glyphLoad]; rfl
  | glyphClear => simp only [DeviceCommand.carry, State.withOnLink_glyphClear]; rfl
  | pitchCells => simp only [DeviceCommand.carry, State.withOnLink_pitchCells]; rfl

/-! ## The intake (R165, R166) -/

theorem State.withOnLink_takeCommand (c : Command) (room tag : Byte) (args : List Byte) :
    (s.withOnLink l).takeCommand c room tag args = (s.takeCommand c room tag args).withOnLink l := by
  cases c with
  | device d =>
    simp only [State.takeCommand, State.withOnLink_answer, State.withOnLink_deviceCarry, apply_ite (State.withOnLink l)]
  | room k =>
    simp only [State.takeCommand]
    cases roomByte room with
    | none => rfl
    | some r =>
      simp only [State.withOnLink_carry, State.withOnLink_answer, apply_ite (State.withOnLink l)]
      rfl

theorem State.withOnLink_takeControl (room tag : Byte) (payload : List Byte) :
    (s.withOnLink l).takeControl room tag payload = (s.takeControl room tag payload).withOnLink l := by
  cases payload with
  | nil => rfl
  | cons code args =>
    simp only [State.takeControl]
    cases Command.ofCode code.toNat with
    | none => rfl
    | some c => exact State.withOnLink_takeCommand ..

/-- A cell is taken in the same way whatever stands behind it on the link. -/
theorem State.withOnLink_takeCell (c : DownCell) : (s.withOnLink l).takeCell c = (s.takeCell c).withOnLink l := by
  have video : (s.withOnLink l).takeVideoCell c = (s.takeVideoCell c).withOnLink l := by
    simp only [State.takeVideoCell]
    cases roomByte c.room <;> rfl
  have mark : (s.withOnLink l).takeMarkCell c = (s.takeMarkCell c).withOnLink l := by
    simp only [State.takeMarkCell]
    cases roomByte c.room with
    | none => rfl
    | some r => simp only [State.withOnLink_hand, State.withOnLink_discardCell, apply_ite (State.withOnLink l)]
  simp only [State.takeCell, video, mark, State.withOnLink_takeControl, apply_ite (State.withOnLink l)]
  rfl

theorem State.withOnLink_startUplink : (s.withOnLink l).startUplink = s.startUplink.withOnLink l := by
  have chosen : (s.withOnLink l).chosenLink = s.chosenLink := rfl
  simp only [State.startUplink, chosen, State.withOnLink_link, apply_ite (State.withOnLink l)]
  rfl

end

/-! ## Credit (R164, R168) -/

/-- Without credit, or with less than a cell, the bytes wait. -/
theorem State.arrive_of_waiting {s : State} {bytes : List Byte}
    (waits : s.link.credit = false ∨ nextCell (s.onLink ++ bytes) = none) :
    s.arrive bytes = { s with onLink := s.onLink ++ bytes } := by
  simp only [State.arrive, State.takeFromLink]
  rcases waits with granted | short
  · cases nextCell (s.onLink ++ bytes) with
    | none => rfl
    | some x => simp only [granted, Bool.false_eq_true, if_false]
  · simp only [short]

/-- Settles O8, by the frame of the bytes on the link: taking a cell does not read them. -/
theorem cellsWaitForCredit : Obligations.CellsWaitForCredit := by
  refine ⟨fun s => State.takesCells_iff, ?_⟩
  rintro s bytes l rfl
  refine ⟨fun waits => ?_, fun kind room tag high low payload rest up line few stands length => ?_⟩
  · have apart : s.link.credit = false ∨ nextCell (s.onLink ++ bytes) = none := by
      rw [← Bool.not_eq_true, Link.credit_iff, Config.resultPlaces, nextCell_eq_none]
      rcases waits with down | held | full | short
      · exact .inl fun granted => Bool.false_ne_true (down.symm.trans granted.1)
      · exact .inl fun granted => Bool.false_ne_true (granted.2.1.symm.trans held)
      · exact .inl fun granted => granted.2.2.not_ge full
      · exact .inr short
    exact congrArg finish (State.arrive_of_waiting apart)
  · have credit : s.link.credit = true := Link.credit_iff.2 ⟨up, line, few⟩
    refine ⟨(({ s with onLink := [] } : State).takeCell ⟨kind, room, tag, payload⟩).startUplink, ?_, ?_⟩
    · exact exec_cellIntake length (State.takesCells_iff.2 ⟨up, line, few, rfl⟩)
    · have taken : s.arrive bytes =
          (({ s with onLink := [] } : State).takeCell ⟨kind, room, tag, payload⟩).withOnLink rest := by
        rw [State.arrive_of_cell length credit stands]
        exact State.withOnLink_takeCell rest { s with onLink := [] } ⟨kind, room, tag, payload⟩
      refine (congrArg finish taken).trans ?_
      exact congrArg Host.Outcome.next (State.withOnLink_startUplink ..)

end Sys2Proof.Machine
end
